-- ==== Sys2Proof/Word.lean ====
section
/-! DEFINITION. The words of the LK-816: addresses, data values, the 22-bit stored word of the table
store, the places a stored word can be, and the plainest arithmetic on them (spec/00_scope.md 1.5.1,
spec/01_the_table_store.md 2.1). -/

namespace Sys2Proof

/-- A word address, 0–8191 (1.5.1). -/
abbrev Addr := BitVec 13

/-- A 16-bit register value, data value or sample code (1.5.1). -/
abbrev Data := BitVec 16

/-- A channel number, 0–15 (R22). -/
abbrev Chan := Fin 16

/-- A spare slot number, 0–15 (R105). -/
abbrev SlotNo := Fin 16

/-- The 22 stored bits of one word of the table store: 16 data bits and six check bits (Table 2-1). -/
structure StoredWord where
  data : BitVec 16
  check : BitVec 6
  deriving DecidableEq, Repr

/-- The word the start-up fill writes: data 0 with check field 0 (R19). -/
def StoredWord.zero : StoredWord := ⟨0, 0⟩

/-- A physical word of the store: a main word or a spare word (Table 2-1). -/
inductive Place where
  | main (a : Addr)
  | spare (k : SlotNo)
  deriving DecidableEq, Repr

/-- The key of a physical word in the model's memory: main words 0–8191, then spare words
8192–8207. This is also the order in which the start-up fill writes them (R19). -/
def Place.key : Place → Nat
  | .main a => a.toNat
  | .spare k => 8192 + k.val

/-- The number of physical words, 8,192 main and 16 spare (R19: 8,208 writes in all). -/
def wordCount : Nat := 8208

/-- One more, stopping at the maximum of the width: a saturating counter (1.5.2). -/
def satInc {w : Nat} (x : BitVec w) : BitVec w :=
  if x = BitVec.allOnes w then x else x + 1

/-- The low bit of a 16-bit number as a word of its own. -/
def bitWord (b : Bool) : BitVec 16 := if b then 1 else 0

end Sys2Proof
end

