-- ==== Sys2Proof/Syntax.lean ====
section
/-! DEFINITION. The commands of the LK-816: one constructor per row of spec/opcode_table.json, with
the operands the spec's rule for that row uses. -/

namespace Sys2Proof

/-- How a device reset comes about (R18, R19). -/
inductive ResetCause where
  /-- RESET# is asserted, at power-on or in either device state; the fill waits for its release. -/
  | pinAsserted
  /-- Power-on with RESET# already released; the fill begins at power-on. -/
  | powerOn
  deriving DecidableEq, Repr

/-- The commands, in the order of spec/opcode_table.json. A register write carries the whole 16-bit
word written. A COMMAND write carries the low byte of its word (bits 3–0 the channel number, bits
7–4 reserved); its code is the constructor's. -/
inductive Instr where
  | deviceReset (cause : ResetCause)
  | resetRelease
  | startUpFillWriteCompletion
  /-- Stored bits of the word at `place` change: the bits set in the masks are inverted (R7). -/
  | storedBitDisturbance (place : Place) (dataMask : BitVec 16) (checkMask : BitVec 6)
  /-- The 29 bits on RQ[28:0] while RQ_OFFER is asserted (R49, R180). -/
  | requestAcceptance (word : BitVec 29)
  /-- RS_TAKE is asserted for one transfer (R51). -/
  | delivery
  | stallTimerExpiry
  | linkRstAssert
  | linkRstRelease
  | lookupReadCompletion
  | drainedReadCompletion
  | prefetchCompletion
  | postedWriteCompletion
  | fillWordCompletion
  | verifyReadCompletion
  | retireReadCompletion
  | spareWriteCompletion
  | patrolIntervalExpiry
  | patrolReadCompletion
  | writeBackCompletion
  | tablePointerWrite (value : Data)
  | tableDataRead
  | tableDataWrite (value : Data)
  | tablePortStatusClear (value : Data)
  | intStatusWrite (value : Data)
  | intEnableWrite (value : Data)
  | winAddrWrite (value : Data)
  | winDataRead
  | winDataWrite (value : Data)
  | timebaseWrite (value : Data)
  | patrolCtrlWrite (value : Data)
  | patrolIntervalWrite (value : Data)
  | linkCtrlWrite (value : Data)
  | linkTimeoutWrite (value : Data)
  /-- A write of the register selected by HA[4:0] = `select`, offset twice the select value (R156). -/
  | registerWrite (select : BitVec 5) (value : Data)
  | enable (low : BitVec 8)
  | disable (low : BitVec 8)
  | resume (low : BitVec 8)
  | arm (low : BitVec 8)
  | disarm (low : BitVec 8)
  | fill (low : BitVec 8)
  | verify (low : BitVec 8)
  | retire (low : BitVec 8)
  | abortJobs (low : BitVec 8)
  | popError (low : BitVec 8)
  | popCompletion (low : BitVec 8)
  | clearLoss (low : BitVec 8)
  | softReset (low : BitVec 8)
  /-- A write of COMMAND with the whole word `word`, whose code is none of the thirteen (R171). -/
  | unknownCommand (word : Data)
  deriving DecidableEq, Repr

/-- The thirteen commands that a code of COMMAND names (Table 10-6). -/
inductive HostCommand where
  | enable
  | disable
  | resume
  | arm
  | disarm
  | fill
  | verify
  | retire
  | abortJobs
  | popError
  | popCompletion
  | clearLoss
  | softReset
  deriving DecidableEq, Repr

/-- The register selects (offset / 2, Table 11-1) whose write is a row of its own: INT_STATUS,
INT_ENABLE, COMMAND, TIMEBASE, PATROL_CTRL, PATROL_INTERVAL, LINK_CTRL, LINK_TIMEOUT, TABLE_POINTER,
TABLE_DATA, TABLE_PORT_STATUS, WIN_ADDR and WIN_DATA. -/
def ownRowSelects : List (BitVec 5) :=
  [0x02, 0x03, 0x04, 0x06, 0x07, 0x08, 0x0B, 0x0C, 0x0E, 0x0F, 0x10, 0x12, 0x13]

end Sys2Proof
end

