-- ==== Sys2Proof/Decode.lean ====
section
/-! DEFINITION. The command that a word of COMMAND spells, by its code (Table 10-6, Table 11-12); and
the command a table word spells: no row of spec/opcode_table.json gives bits (every row's "fields" is
empty), so no table word spells one. -/

namespace Sys2Proof

/-- The command a code names; every other code, 0x00 included, names none (Table 10-6, Table 11-12). -/
def commandOfCode (code : BitVec 8) : Option HostCommand :=
  match code.toNat with
  | 0x01 => some .enable
  | 0x02 => some .disable
  | 0x03 => some .resume
  | 0x04 => some .arm
  | 0x05 => some .disarm
  | 0x10 => some .fill
  | 0x11 => some .verify
  | 0x12 => some .retire
  | 0x13 => some .abortJobs
  | 0x20 => some .popError
  | 0x21 => some .popCompletion
  | 0x22 => some .clearLoss
  | 0x30 => some .softReset
  | _ => none

/-- CODE, bits 15–8 of a word of COMMAND (R171, R178). -/
def commandCode (w : Data) : BitVec 8 := w.extractLsb' 8 8

/-- The low byte of a word of COMMAND, which holds CHANNEL (R171). -/
def commandLow (w : Data) : BitVec 8 := w.extractLsb' 0 8

/-- The row of a command, with the low byte of its word. -/
def HostCommand.row (low : BitVec 8) : HostCommand → Instr
  | .enable => .enable low
  | .disable => .disable low
  | .resume => .resume low
  | .arm => .arm low
  | .disarm => .disarm low
  | .fill => .fill low
  | .verify => .verify low
  | .retire => .retire low
  | .abortJobs => .abortJobs low
  | .popError => .popError low
  | .popCompletion => .popCompletion low
  | .clearLoss => .clearLoss low
  | .softReset => .softReset low

/-- The row that a written word of COMMAND is (R171): its code's command, or UNKNOWN_COMMAND. -/
def decodeCommand (w : Data) : Instr :=
  match commandOfCode (commandCode w) with
  | some h => h.row (commandLow w)
  | none => .unknownCommand w

/-- The command that the low `nbits` bits `w` spell by the table's bits: none, since no row of the
table gives any. -/
def decodeTableWord (_nbits _w : Nat) : Option Instr := none

end Sys2Proof
end

