-- ==== Sys2Proof/Config.lean ====
section
/-! DEFINITION. What the spec leaves open: the one free value of the model. -/

namespace Sys2Proof

/-- FREE VALUE (log entry 3). The 22 bits of a word whose write a device reset abandoned: "a word
being written may hold any 22 bits until the fill rewrites it" (R18). It has no body that a proof can
use; the argument numbers the device resets at which it is used (`State.freeIndex`). -/
opaque Config.abandonedWord : Nat → BitVec 22

end Sys2Proof
end

