-- ==== Sys2Proof/Machine/State.lean ====
section
/-! DEFINITION. The state of the LK-816 block by block (Table 1-1), as plain data, and the state right
after reset. Each type's docstring names the table or rule that gives it. -/

namespace Sys2Proof.Machine

/-! ## The table store (chapter 2) -/

/-- The device states (Table 2-1, R18, R19). -/
inductive DeviceState where
  | startUp
  | running
  deriving DecidableEq, Repr

/-- The outcome of a completed read (R3). -/
inductive ReadOutcome where
  | clean
  | corrected
  | uncorrectable
  | poisoned
  deriving DecidableEq, Repr

/-- What a read returns at its completion: the five items of R3. `place` is the physical word
reached, MAIN or a spare slot. -/
structure ReadResult where
  data : Data
  outcome : ReadOutcome
  syndrome : BitVec 6
  address : Addr
  place : Place
  deriving DecidableEq, Repr

/-- The three claimants of the store (1.5.4). -/
inductive Claimant where
  | lookup
  | host
  | maint
  deriving DecidableEq, Repr

/-- Which operation a read in progress belongs to (Table 2-6). -/
inductive ReadTag where
  | lookup
  | prefetch
  | verify
  | retire
  | patrol
  deriving DecidableEq, Repr

/-- Which operation a write in progress belongs to (R2, R9). -/
inductive WriteTag where
  | posted
  | fill
  | spare
  | writeBack
  deriving DecidableEq, Repr

/-- What is still to be done with an access in progress: `wanted`, its operation awaits it; `stale`,
a read whose claimant lost interest and which still files its detection (R10: a discarded lookup slot
after link reset, a discarded prefetch); `dropped`, in progress when a soft reset was taken (R21). -/
inductive Interest where
  | wanted
  | stale
  | dropped
  deriving DecidableEq, Repr

/-- The one access the store carries out (R1). A read has sensed its bits at its grant (R3). A write
names the key of the word it changed, or none for a host write refused at its grant (R164). -/
inductive Access where
  | read (tag : ReadTag) (result : ReadResult) (interest : Interest)
  | write (tag : WriteTag) (key : Option Nat) (interest : Interest)
  deriving DecidableEq, Repr

/-- A claim of the maintenance engine (R11, R16): a plain read, a claiming read, a write by main
address, or the retire operation's spare write, which names a slot (R9). -/
inductive MaintClaim where
  | plainRead (tag : ReadTag) (a : Addr)
  | claimingRead (tag : ReadTag) (a : Addr)
  | write (tag : WriteTag) (a : Addr) (d : Data)
  | spareWrite (k : SlotNo) (d : Data)
  deriving DecidableEq, Repr

/-- A claim of the host table port (2.5): its posted write, or the prefetch of the pointer. -/
inductive HostClaim where
  | postedWrite
  | prefetch
  deriving DecidableEq, Repr

/-- The table store and the device state (Table 2-1). `mem` lists the physical words that differ
from the zero word, keys strictly rising; `fill` is the index of the start-up fill's write in
progress; `resetAsserted` is the level of RESET#. -/
structure Store where
  mem : List (Nat × StoredWord)
  access : Option Access
  hostWait : Nat
  maintWait : Nat
  mark : Option Addr
  device : DeviceState
  fill : Option Nat
  resetAsserted : Bool
  deriving DecidableEq, Repr

/-! ## Channel contexts (chapter 3) -/

/-- The channel states (Table 3-2). -/
inductive ChanState where
  | disabled
  | active
  | suspended
  deriving DecidableEq, Repr

/-- The two banks of a channel (R23). -/
inductive BankName where
  | a
  | b
  deriving DecidableEq, Repr

/-- The other bank (R23). -/
def BankName.other : BankName → BankName
  | .a => .b
  | .b => .a

/-- The interpolation modes (Table 3-1). -/
inductive Mode where
  | nearest
  | linear
  deriving DecidableEq, Repr

/-- The error policies (Table 3-1). -/
inductive Policy where
  | holdLast
  | substitute
  | reject
  deriving DecidableEq, Repr

/-- A bank descriptor: BASE, ORDER and MODE (R23). -/
structure Bank where
  base : Addr
  order : BitVec 4
  mode : Mode
  deriving DecidableEq, Repr

/-- A range of main addresses, both ends included (1.5.1). -/
structure AddrRange where
  lo : Nat
  hi : Nat
  deriving DecidableEq, Repr

/-- The context record of one channel (Table 3-1). CLAMP_LO, CLAMP_HI, SUBSTITUTE and LAST_GOOD are
two's-complement words. -/
structure Context where
  state : ChanState
  armed : Bool
  activeBank : BankName
  bankA : Bank
  bankB : Bank
  inOffset : Data
  clampLo : Data
  clampHi : Data
  policy : Policy
  substitute : Data
  suspendLimit : BitVec 8
  uncorrCount : BitVec 8
  lastGood : Data
  swapFrame : BitVec 16
  deriving DecidableEq, Repr

/-- The snapshot a slot takes at the acceptance of a LOOKUP on an ACTIVE channel (R58). -/
structure Snapshot where
  bank : Bank
  inOffset : Data
  clampLo : Data
  clampHi : Data
  policy : Policy
  substitute : Data
  deriving DecidableEq, Repr

/-! ## The sample link, the lookup queue and the lookup engine (chapters 4 and 5) -/

/-- The dispositions (Table 4-3). -/
inductive Disposition where
  | ok
  | substituted
  | held
  | rejected
  | suspended
  | channelOff
  | frameAck
  | linkParity
  | badKind
  deriving DecidableEq, Repr

/-- The response fields of a DONE slot (Table 4-2). -/
structure Response where
  disposition : Disposition
  corrected : Bool
  clamped : Bool
  result : Data
  deriving DecidableEq, Repr

/-- The states of a slot, with what it records in each (Table 4-4, R52). -/
inductive SlotPhase where
  | waiting (sample : Data) (snap : Snapshot)
  | reading (sample : Data) (snap : Snapshot)
  | done (response : Response)
  deriving DecidableEq, Repr

/-- One slot of the lookup queue (R52): KIND, CHANNEL and TAG as received. -/
structure Slot where
  kind : BitVec 2
  channel : Chan
  tag : BitVec 6
  phase : SlotPhase
  deriving DecidableEq, Repr

/-- The running stall timer: elapsed ticks since the head was first offered, and whether it has
expired for this head (R61). -/
structure StallTimer where
  elapsed : Nat
  expired : Bool
  deriving DecidableEq, Repr

/-- The sample link: the lookup queue, head first; the frame counter; LINK_CTRL's link enable; the
level of LINK_RST; LINK_TIMEOUT; and the stall timer, none while stopped. -/
structure Link where
  queue : List Slot
  frame : BitVec 16
  enable : Bool
  linkRst : Bool
  timeout : BitVec 16
  stall : Option StallTimer
  deriving DecidableEq, Repr

/-- The progress record of the lookup engine (Table 5-1), but for the first entry. -/
structure Progress where
  x : Nat
  offsetClamped : Bool
  index : Nat
  fraction : Nat
  anyCorrected : Bool
  anyFaulty : Bool
  deriving DecidableEq, Repr

/-- The first entry of a LINEAR lookup: data and read outcome (Table 5-1). -/
structure Entry where
  data : Data
  outcome : ReadOutcome
  deriving DecidableEq, Repr

/-- The states of the lookup engine (R68). While it evaluates, its current slot is the READING slot
of the queue; in DRAINING that slot has left the queue, so the engine keeps what R86 still needs of
it: the channel, the bound bank and "any faulty". -/
inductive Engine where
  | idle
  | firstRead (p : Progress)
  | secondRead (p : Progress) (first : Entry)
  | draining (channel : Chan) (bound : Bank) (anyFaulty : Bool)
  deriving DecidableEq, Repr

/-! ## The error record queue (chapter 6) -/

/-- The kinds of an error record (Table 6-1). -/
inductive ErrorKind where
  | corrected
  | uncorrectable
  | poisoned
  deriving DecidableEq, Repr

/-- The sources of a detection (Table 2-6). -/
inductive Source where
  | lookup
  | host
  | patrol
  | job
  deriving DecidableEq, Repr

/-- One error record (Table 6-1). -/
structure ErrorRecord where
  kind : ErrorKind
  source : Source
  address : Addr
  place : Place
  syndrome : BitVec 6
  channel : Option Chan
  count : BitVec 8
  firstFrame : BitVec 16
  lastFrame : BitVec 16
  deriving DecidableEq, Repr

/-- A detection offered for filing (R91): what the store and the claimant supply. -/
structure Detection where
  kind : ErrorKind
  source : Source
  address : Addr
  place : Place
  syndrome : BitVec 6
  channel : Option Chan
  deriving DecidableEq, Repr

/-- The filing result handed back to the claimant (R98): the case of Table 6-2 and the record's
COUNT after the filing. -/
inductive FilingResult where
  | coalesced (count : BitVec 8)
  | created
  | displacing
  | dropped
  deriving DecidableEq, Repr

/-- The error record queue, head first, and the loss counter (R89, R96). -/
structure ErrorQueue where
  records : List ErrorRecord
  loss : BitVec 8
  deriving DecidableEq, Repr

/-! ## Word sparing (chapter 7) -/

/-- The states of a spare slot (R105). -/
inductive SpareState where
  | free
  | mapped
  | defective
  deriving DecidableEq, Repr

/-- A spare slot's state and poison flag (Table 7-1). -/
structure SpareSlot where
  state : SpareState
  poison : Bool
  deriving DecidableEq, Repr

/-- A valid spare map entry (R107). -/
structure MapEntry where
  address : Addr
  slot : SlotNo
  deriving DecidableEq, Repr

/-- Who started a retire operation (Table 7-4). -/
inductive RetireSource where
  | job
  | patrol
  deriving DecidableEq, Repr

/-- What a retire operation holds in phase WRITE (Table 7-4). -/
structure RetireCopy where
  outcome : ReadOutcome
  copy : Data
  poison : Bool
  slot : SlotNo
  deriving DecidableEq, Repr

/-- The phases of a retire operation (Table 7-4). -/
inductive RetirePhase where
  | read
  | write (c : RetireCopy)
  deriving DecidableEq, Repr

/-- The record of a retire operation in progress (Table 7-4). -/
structure RetireOp where
  address : Addr
  source : RetireSource
  phase : RetirePhase
  deriving DecidableEq, Repr

/-- The spare slots, the spare map (an invalid entry is `none`) and the retire operation. -/
structure Sparing where
  slots : Vector SpareSlot 16
  map : Vector (Option MapEntry) 16
  retire : Option RetireOp
  deriving DecidableEq, Repr

/-! ## Maintenance jobs (chapter 8) -/

/-- The kinds of job (Table 8-2). -/
inductive JobKind where
  | fill
  | verify
  | retire
  deriving DecidableEq, Repr

/-- An accepted job with its own copy of its arguments (R122, R123). A RETIRE job's `start` is its
address; `count` and `value` are used where Table 8-2 uses JOB_ARG_B and JOB_ARG_C. -/
structure Job where
  kind : JobKind
  id : BitVec 8
  start : Addr
  count : Nat
  value : Data
  deriving DecidableEq, Repr

/-- The running job's progress record (R127). The next address to access is `start` plus WORDS_DONE
(R128, R129: ascending order). -/
structure RunningJob where
  job : Job
  wordsDone : Nat
  correctedFound : Nat
  uncorrFound : Nat
  stopping : Bool
  deriving DecidableEq, Repr

/-- How a job ended (Table 8-3). -/
inductive JobOutcome where
  | done
  | aborted
  | noSpare
  deriving DecidableEq, Repr

/-- One completion record (Table 8-3). -/
structure Completion where
  id : BitVec 8
  kind : JobKind
  outcome : JobOutcome
  start : Addr
  wordsDone : Nat
  correctedFound : Nat
  uncorrFound : Nat
  slot : Option SlotNo
  deriving DecidableEq, Repr

/-- The maintenance engine (Table 8-1). -/
structure Maint where
  ticketsFree : Nat
  queue : List Job
  run : Option RunningJob
  completions : List Completion
  nextId : BitVec 8
  argA : BitVec 16
  argB : BitVec 16
  argC : BitVec 16
  deriving DecidableEq, Repr

/-! ## Patrol scrubbing (chapter 9) -/

/-- The patrol states (R143). -/
inductive PatrolPhase where
  | off
  | pacing
  | yielding
  | claiming
  | checking
  | repairing
  deriving DecidableEq, Repr

/-- The step record (Table 9-1): the address, the outcome of the step's read once it is known, the
data a write-back carries, the cancel mark, and whether a retire operation of the step is in
progress. -/
structure PatrolStep where
  address : Addr
  outcome : Option ReadOutcome
  data : Data
  cancel : Bool
  retiring : Bool
  deriving DecidableEq, Repr

/-- The patrol (Table 9-1). `timer` is the interval timer's elapsed time, none while stopped. -/
structure Patrol where
  enable : Bool
  retireLimit : BitVec 4
  share : BitVec 5
  interval : BitVec 16
  pointer : Addr
  passes : BitVec 16
  phase : PatrolPhase
  timer : Option Nat
  step : Option PatrolStep
  deriving DecidableEq, Repr

/-! ## The host port (chapter 10) -/

/-- The nine sticky flags of INT_STATUS (Table 10-5). The level flags LOG_NONEMPTY and JOB_DONE
follow their queues and have no storage of their own (R97, R135). -/
structure Flags where
  startDone : Bool
  logUncorr : Bool
  logLoss : Bool
  swapDone : Bool
  suspended : Bool
  linkError : Bool
  linkStall : Bool
  writeRefused : Bool
  sparesExhausted : Bool
  deriving DecidableEq, Repr

/-- Every sticky flag clear (R174). -/
def Flags.clear : Flags := ⟨false, false, false, false, false, false, false, false, false⟩

/-- The prefetch holder (Table 10-2); a FULL holder has the data and outcome. -/
inductive Holder where
  | empty
  | pending
  | full (data : Data) (outcome : ReadOutcome)
  deriving DecidableEq, Repr

/-- A posted write: address and data (Table 10-1). -/
structure Posted where
  address : Addr
  data : Data
  deriving DecidableEq, Repr

/-- PREFETCH_OUTCOME of TABLE_PORT_STATUS (Table 10-1). -/
inductive PrefetchOutcome where
  | none
  | clean
  | corrected
  | uncorrectable
  | poisoned
  | starting
  deriving DecidableEq, Repr

/-- The four windows (Table 10-4). -/
inductive Window where
  | context
  | errorHead
  | completionHead
  | spareMap
  deriving DecidableEq, Repr

/-- The window outcomes of WIN_STATUS (Table 11-14). -/
inductive WinOutcome where
  | ok
  | locked
  | badValue
  | readOnly
  deriving DecidableEq, Repr

/-- The result codes of COMMAND_RESULT (Table 11-13). -/
inductive ResultCode where
  | ok
  | starting
  | badState
  | rangeBusy
  | noTicket
  | badArgument
  | empty
  | unknown
  deriving DecidableEq, Repr

/-- A host access that READY stretches (R157): a TABLE_DATA read, or a TABLE_DATA write with the
value it will post. -/
inductive Stretch where
  | read
  | write (value : Data)
  deriving DecidableEq, Repr

/-- The host port's own state (Table 10-1), and the access that holds the bus, if one does. -/
structure HostPort where
  timebase : BitVec 7
  flags : Flags
  intEnable : BitVec 11
  pointer : Addr
  holder : Holder
  posted : Option Posted
  refusedCount : BitVec 8
  refusedAddress : Addr
  outcome : PrefetchOutcome
  window : Window
  index : BitVec 8
  winStatus : WinOutcome
  result : ResultCode
  resultJob : BitVec 8
  stretch : Option Stretch
  deriving DecidableEq, Repr

/-- The MODEL's own record of what the part last handed out (log entry 5): the word the last ended
TABLE_DATA or WIN_DATA read returned on HD[15:0], and the response word the last delivery moved on
RS[34:0]. -/
structure Outputs where
  readData : BitVec 16
  delivered : BitVec 35
  deriving DecidableEq, Repr

/-! ## The whole machine -/

/-- The state of the LK-816. `freeIndex` numbers the uses of the free value (log entry 3), and
`pending` is the queue of commands that wait, first in, first out. -/
structure State where
  store : Store
  channels : Vector Context 16
  link : Link
  engine : Engine
  errors : ErrorQueue
  sparing : Sparing
  maint : Maint
  patrol : Patrol
  host : HostPort
  outputs : Outputs
  freeIndex : Nat
  pending : List Instr
  deriving DecidableEq, Repr

/-- The reasons a step faults. There are none: the spec describes no event of the part that stops it,
and no access names an address that does not exist. Nothing raises a fault; safe. -/
inductive Fault where
  deriving DecidableEq, Repr

/-- The reasons a step is refused. -/
inductive Refusal where
  /-- Raised by `exec` for a command without a meaning. No arm raises it: every row has its meaning.
  Safe. -/
  | notModelled (mnemonic : String)
  deriving DecidableEq, Repr

/-! ## Named updates of the blocks -/

def State.setStore (s : State) (v : Store) : State := { s with store := v }
def State.setChannels (s : State) (v : Vector Context 16) : State := { s with channels := v }
def State.setLink (s : State) (v : Link) : State := { s with link := v }
def State.setEngine (s : State) (v : Engine) : State := { s with engine := v }
def State.setErrors (s : State) (v : ErrorQueue) : State := { s with errors := v }
def State.setSparing (s : State) (v : Sparing) : State := { s with sparing := v }
def State.setMaint (s : State) (v : Maint) : State := { s with maint := v }
def State.setPatrol (s : State) (v : Patrol) : State := { s with patrol := v }
def State.setHost (s : State) (v : HostPort) : State := { s with host := v }
def State.setOutputs (s : State) (v : Outputs) : State := { s with outputs := v }

/-! ## Reset -/

/-- A bank after device reset: BASE 0, ORDER 4, LINEAR (R22). -/
def Bank.reset : Bank := ⟨0, 4, .linear⟩

/-- A context record after device reset (Table 3-1). -/
def Context.reset : Context where
  state := .disabled
  armed := false
  activeBank := .a
  bankA := Bank.reset
  bankB := Bank.reset
  inOffset := 0
  clampLo := 0x8000
  clampHi := 0x7FFF
  policy := .holdLast
  substitute := 0
  suspendLimit := 0
  uncorrCount := 0
  lastGood := 0
  swapFrame := 0

/-- The machine right after a power-on with RESET# already released: START_UP, the start-up fill
begun and no word yet written (R18, R19; log entry 1 for the moment chosen, log entry 2 for the words
not yet written). -/
def State.reset : State where
  store :=
    { mem := [], access := none, hostWait := 0, maintWait := 0, mark := none
      device := .startUp, fill := some 0, resetAsserted := false }
  channels := Vector.replicate 16 Context.reset
  link := { queue := [], frame := 0, enable := false, linkRst := false, timeout := 0, stall := none }
  engine := .idle
  errors := { records := [], loss := 0 }
  sparing :=
    { slots := Vector.replicate 16 ⟨.free, false⟩, map := Vector.replicate 16 none, retire := none }
  maint :=
    { ticketsFree := 4, queue := [], run := none, completions := [], nextId := 0
      argA := 0, argB := 0, argC := 0 }
  patrol :=
    { enable := false, retireLimit := 4, share := 8, interval := 100, pointer := 0, passes := 0
      phase := .off, timer := none, step := none }
  host :=
    { timebase := 25, flags := Flags.clear, intEnable := 0, pointer := 0, holder := .empty
      posted := none, refusedCount := 0, refusedAddress := 0, outcome := .starting
      window := .context, index := 0, winStatus := .ok, result := .ok, resultJob := 0
      stretch := none }
  outputs := { readData := 0, delivered := 0 }
  freeIndex := 0
  pending := []

end Sys2Proof.Machine
end

