-- ==== Sys2Proof/Machine/Ops.lean ====
section
/-! DEFINITION. The named operations over the table store: the check code (2.2), the memory of stored
words, redirection through the spare map (2.3), what a read senses, what a write changes, and the
free value of an abandoned write. -/

namespace Sys2Proof.Machine

/-! ## The check code -/

/-- The syndrome values of data bits d0 to d15, in order (R4). -/
def dataSyndromes : List (BitVec 6) :=
  [7, 11, 13, 14, 19, 21, 22, 25, 26, 28, 35, 37, 38, 41, 42, 44]

/-- The syndrome values of check bits c0 to c5, in order (R4). -/
def checkSyndromes : List (BitVec 6) := [1, 2, 4, 8, 16, 32]

/-- The exclusive-or of the values in the list whose data bit, counted from bit `i`, is 1. -/
def xorSelected (d : Data) : Nat → List (BitVec 6) → BitVec 6
  | _, [] => 0
  | i, v :: vs => (if d.getLsbD i then v else 0) ^^^ xorSelected d (i + 1) vs

/-- The check field the store computes for 16 data bits (R4, Table 2-2). -/
def checkField (d : Data) : BitVec 6 := xorSelected d 0 dataSyndromes

/-- The 22 bits a write stores: the data with the check bits of the check code (R2). -/
def encodeWord (d : Data) : StoredWord := ⟨d, checkField d⟩

/-- The syndrome of a stored word: the recomputed check field exclusive-or the stored one (R5). -/
def syndromeOf (w : StoredWord) : BitVec 6 := checkField w.data ^^^ w.check

/-- The data bit position that a syndrome names, if it names one (Table 2-3). -/
def dataPosition (syn : BitVec 6) : Option Nat := dataSyndromes.findIdx? (· == syn)

/-- The outcome, data and syndrome of a read of a word that is not POISONED (Table 2-3). -/
def decodeWord (w : StoredWord) : ReadOutcome × Data × BitVec 6 :=
  let syn := syndromeOf w
  if syn = 0 then (.clean, w.data, syn)
  else if syn ∈ checkSyndromes then (.corrected, w.data, syn)
  else
    match dataPosition syn with
    | some i => (.corrected, w.data ^^^ BitVec.twoPow 16 i, syn)
    | none => (.uncorrectable, w.data, syn)

/-- An outcome that makes a read faulty: UNCORRECTABLE or POISONED (R39, R76). -/
def ReadOutcome.faulty (o : ReadOutcome) : Bool := o == .uncorrectable || o == .poisoned

/-! ## The memory of stored words -/

/-- What key `k` holds: the listed word, or the zero word (log entry 2). -/
def memRead : List (Nat × StoredWord) → Nat → StoredWord
  | [], _ => StoredWord.zero
  | (j, w) :: rest, k => if j = k then w else memRead rest k

/-- The list with word `w` put at key `k`, keys kept rising and no zero word listed. -/
def memWrite : List (Nat × StoredWord) → Nat → StoredWord → List (Nat × StoredWord)
  | [], k, w => if w = StoredWord.zero then [] else [(k, w)]
  | (j, v) :: rest, k, w =>
    if j < k then (j, v) :: memWrite rest k w
    else
      let tail := if j = k then rest else (j, v) :: rest
      if w = StoredWord.zero then tail else (k, w) :: tail

/-- The stored word at a physical place. -/
def State.word (s : State) (p : Place) : StoredWord := memRead s.store.mem p.key

/-- The state with word `w` at key `k`. -/
def State.putWord (s : State) (k : Nat) (w : StoredWord) : State :=
  s.setStore { s.store with mem := memWrite s.store.mem k w }

/-! ## Redirection through the spare map -/

/-- The slot that the valid entry naming `a` gives, searching the entries in turn (R107). -/
def mapLookup : List (Option MapEntry) → Addr → Option SlotNo
  | [], _ => none
  | some e :: rest, a => if e.address = a then some e.slot else mapLookup rest a
  | none :: rest, a => mapLookup rest a

/-- The physical word that an access to main address `a` reaches when granted now (R8). -/
def State.resolve (s : State) (a : Addr) : Place :=
  match mapLookup s.sparing.map.toList a with
  | some k => .spare k
  | none => .main a

/-- Whether a place is a MAPPED spare slot with its poison flag set (R6). -/
def State.poisonedPlace (s : State) : Place → Bool
  | .main _ => false
  | .spare k => s.sparing.slots[k].state == .mapped && s.sparing.slots[k].poison

/-- What a read of main address `a` senses at its grant (R3, R5, R6). -/
def State.sense (s : State) (a : Addr) : ReadResult :=
  let p := s.resolve a
  let w := s.word p
  if s.poisonedPlace p then
    { data := w.data, outcome := .poisoned, syndrome := 0, address := a, place := p }
  else
    let r := decodeWord w
    { data := r.2.1, outcome := r.1, syndrome := r.2.2, address := a, place := p }

/-- The slots with slot `k` changed to `v`. -/
def Sparing.setSlot (sp : Sparing) (k : SlotNo) (v : SpareSlot) : Sparing :=
  { sp with slots := sp.slots.set k v }

/-- A write that reaches slot `k` through its main address clears its poison flag (R2). -/
def State.clearPoison (s : State) : Place → State
  | .main _ => s
  | .spare k => s.setSparing (s.sparing.setSlot k { s.sparing.slots[k] with poison := false })

/-- The change a write of `d` addressed by main address `a` makes at its grant (R2, R8). -/
def State.writeData (s : State) (a : Addr) (d : Data) : State :=
  (s.putWord (s.resolve a).key (encodeWord d)).clearPoison (s.resolve a)

/-- The free count: the number of slots in state FREE (R109). -/
def Sparing.freeCount (sp : Sparing) : Nat :=
  sp.slots.toList.countP (fun v => v.state == .free)

/-- The lowest-numbered FREE slot, if there is one (R112). -/
def Sparing.lowestFree (sp : Sparing) : Option SlotNo :=
  (List.finRange 16).find? (fun k => sp.slots[k].state == .free)

/-! ## The access in progress -/

/-- The claimant of an access in progress (Table 2-6). -/
def Access.claimant : Access → Claimant
  | .read .lookup _ _ => .lookup
  | .read .prefetch _ _ => .host
  | .read .verify _ _ => .maint
  | .read .retire _ _ => .maint
  | .read .patrol _ _ => .maint
  | .write .posted _ _ => .host
  | .write .fill _ _ => .maint
  | .write .spare _ _ => .maint
  | .write .writeBack _ _ => .maint

/-- What is still to be done with an access. -/
def Access.interest : Access → Interest
  | .read _ _ i => i
  | .write _ _ i => i

/-- An access at a soft reset: a read and a maintenance write lose their operation; a posted write
keeps its own (R21). -/
def Access.afterSoftReset : Access → Access
  | .read t r _ => .read t r .dropped
  | .write .posted k i => .write .posted k i
  | .write t k _ => .write t k .dropped

/-- A granted read whose claimant has lost interest (R10). -/
def Access.discard : Access → Access
  | .read t r _ => .read t r .stale
  | .write t k i => .write t k i

/-- The state with the access in progress replaced. -/
def State.setAccess (s : State) (a : Option Access) : State :=
  s.setStore { s.store with access := a }

/-- The word at key `k` after its write was abandoned: the next free value (R18, log entry 3). -/
def State.abandonWord (s : State) (k : Nat) : List (Nat × StoredWord) :=
  let bits := Config.abandonedWord s.freeIndex
  memWrite s.store.mem k ⟨bits.extractLsb' 0 16, bits.extractLsb' 16 6⟩

end Sys2Proof.Machine
end

