-- ==== Sys2Proof/Machine/Flags.lean ====
section
/-! DEFINITION. The interrupt flags and what the part shows of its state: INT_STATUS, INT#, the codes
of chapter 11, DEVICE_STATUS, TABLE_PORT_STATUS and the signals of Table 1-2. -/

namespace Sys2Proof.Machine

/-! ## Interrupt flags (10.6) -/

/-- The state with its sticky flags changed. -/
def State.setFlags (s : State) (f : Flags) : State := s.setHost { s.host with flags := f }

def State.raiseStartDone (s : State) : State := s.setFlags { s.host.flags with startDone := true }
def State.raiseLogUncorr (s : State) : State := s.setFlags { s.host.flags with logUncorr := true }
def State.raiseLogLoss (s : State) : State := s.setFlags { s.host.flags with logLoss := true }
def State.raiseSwapDone (s : State) : State := s.setFlags { s.host.flags with swapDone := true }
def State.raiseSuspended (s : State) : State := s.setFlags { s.host.flags with suspended := true }
def State.raiseLinkError (s : State) : State := s.setFlags { s.host.flags with linkError := true }
def State.raiseLinkStall (s : State) : State := s.setFlags { s.host.flags with linkStall := true }
def State.raiseWriteRefused (s : State) : State :=
  s.setFlags { s.host.flags with writeRefused := true }
def State.raiseSparesExhausted (s : State) : State :=
  s.setFlags { s.host.flags with sparesExhausted := true }

/-- The level flag LOG_NONEMPTY (R97). -/
def State.logNonempty (s : State) : Bool := !s.errors.records.isEmpty

/-- The level flag JOB_DONE (R135). -/
def State.jobDone (s : State) : Bool := !s.maint.completions.isEmpty

/-- The eleven flags in the positions of Table 11-2, bit 0 START_DONE to bit 10 SPARES_EXHAUSTED. -/
def State.intStatus (s : State) : BitVec 11 :=
  let f := s.host.flags
  BitVec.ofBoolListLE
    [f.startDone, s.logNonempty, f.logUncorr, f.logLoss, s.jobDone, f.swapDone, f.suspended,
      f.linkError, f.linkStall, f.writeRefused, f.sparesExhausted]

/-- Write 1 to clear: each sticky flag whose bit of `v` is 1 (R174). -/
def Flags.clearBits (f : Flags) (v : Data) : Flags where
  startDone := f.startDone && !v.getLsbD 0
  logUncorr := f.logUncorr && !v.getLsbD 2
  logLoss := f.logLoss && !v.getLsbD 3
  swapDone := f.swapDone && !v.getLsbD 5
  suspended := f.suspended && !v.getLsbD 6
  linkError := f.linkError && !v.getLsbD 7
  linkStall := f.linkStall && !v.getLsbD 8
  writeRefused := f.writeRefused && !v.getLsbD 9
  sparesExhausted := f.sparesExhausted && !v.getLsbD 10

/-- INT# is asserted while a set flag has its enable bit set (R175). -/
def State.intAsserted (s : State) : Bool := s.intStatus &&& s.host.intEnable != 0

/-! ## Codes (11.7) -/

def ResultCode.code : ResultCode → BitVec 16
  | .ok => 0
  | .starting => 1
  | .badState => 2
  | .rangeBusy => 3
  | .noTicket => 4
  | .badArgument => 5
  | .empty => 6
  | .unknown => 7

def PrefetchOutcome.code : PrefetchOutcome → BitVec 16
  | .none => 0
  | .clean => 1
  | .corrected => 2
  | .uncorrectable => 3
  | .poisoned => 4
  | .starting => 5

/-- A read's outcome as PREFETCH_OUTCOME shows it (R161). -/
def ReadOutcome.shown : ReadOutcome → PrefetchOutcome
  | .clean => .clean
  | .corrected => .corrected
  | .uncorrectable => .uncorrectable
  | .poisoned => .poisoned

def Holder.code : Holder → BitVec 16
  | .empty => 0
  | .pending => 1
  | .full _ _ => 2

def WinOutcome.code : WinOutcome → BitVec 16
  | .ok => 0
  | .locked => 1
  | .badValue => 2
  | .readOnly => 3

def Window.code : Window → BitVec 16
  | .context => 0
  | .errorHead => 1
  | .completionHead => 2
  | .spareMap => 3

def ErrorKind.code : ErrorKind → BitVec 16
  | .corrected => 1
  | .uncorrectable => 2
  | .poisoned => 3

def Source.code : Source → BitVec 16
  | .lookup => 0
  | .host => 1
  | .patrol => 2
  | .job => 3

def JobKind.code : JobKind → BitVec 16
  | .fill => 1
  | .verify => 2
  | .retire => 3

def JobOutcome.code : JobOutcome → BitVec 16
  | .done => 0
  | .aborted => 1
  | .noSpare => 2

def SpareState.code : SpareState → BitVec 16
  | .free => 0
  | .mapped => 1
  | .defective => 2

def ChanState.code : ChanState → BitVec 16
  | .disabled => 0
  | .active => 1
  | .suspended => 2

def BankName.code : BankName → BitVec 16
  | .a => 0
  | .b => 1

def Mode.code : Mode → BitVec 16
  | .nearest => 0
  | .linear => 1

def Policy.code : Policy → BitVec 16
  | .holdLast => 0
  | .substitute => 1
  | .reject => 2

def Disposition.code : Disposition → BitVec 4
  | .ok => 0
  | .substituted => 1
  | .held => 2
  | .rejected => 3
  | .suspended => 4
  | .channelOff => 5
  | .frameAck => 6
  | .linkParity => 7
  | .badKind => 8

/-- The patrol state's MODE code in RUNNING (Table 11-4). -/
def PatrolPhase.code : PatrolPhase → BitVec 16
  | .off => 0
  | .pacing => 1
  | .yielding => 2
  | .claiming => 3
  | .checking => 4
  | .repairing => 5

/-! ## Status registers -/

/-- Engine busy: at least one job queued or running (R126). -/
def Maint.busy (m : Maint) : Bool := m.run.isSome || !m.queue.isEmpty

/-- The MODE field: 7 in START_UP, else the patrol state's code (R179). -/
def State.modeField (s : State) : BitVec 16 :=
  match s.store.device with
  | .startUp => 7
  | .running => s.patrol.phase.code

/-- The LEVELS field: free count times 153, plus error queue depth times 9, plus lookup queue
depth (R179). -/
def State.levels (s : State) : Nat :=
  s.sparing.freeCount * 153 + s.errors.records.length * 9 + s.link.queue.length

/-- DEVICE_STATUS (R159, R179). -/
def State.deviceStatus (s : State) : BitVec 16 :=
  (bitWord s.maint.busy <<< 15) ||| (s.modeField <<< 12) ||| BitVec.ofNat 16 s.levels

/-- TABLE_PORT_STATUS (R166, Table 11-2). -/
def State.tablePortStatus (s : State) : BitVec 16 :=
  (s.host.refusedCount.setWidth 16 <<< 8) ||| (bitWord s.host.posted.isSome <<< 6) |||
    (s.host.holder.code <<< 4) ||| s.host.outcome.code

/-- COMMAND_RESULT (R172, Table 11-2). -/
def State.commandResult (s : State) : BitVec 16 :=
  (s.host.resultJob.setWidth 16 <<< 8) ||| s.host.result.code

/-- PATROL_CTRL (Table 11-2). -/
def State.patrolCtrl (s : State) : BitVec 16 :=
  (s.patrol.share.setWidth 16 <<< 8) ||| (s.patrol.retireLimit.setWidth 16 <<< 4) |||
    bitWord s.patrol.enable

/-- WIN_ADDR (R169, Table 11-2). -/
def State.winAddr (s : State) : BitVec 16 :=
  (s.host.window.code <<< 14) ||| s.host.index.setWidth 16

/-! ## The sample link's signals (4.3, 11.4) -/

/-- The number of ones in a word (R180). -/
def onesCount {w : Nat} (x : BitVec w) : Nat := (List.range w).countP (fun i => x.getLsbD i)

/-- Bits 33–0 of the response word of a slot with response `r` (Table 11-6). -/
def responseBits (sl : Slot) (r : Response) : BitVec 34 :=
  sl.kind ++ BitVec.ofNat 4 sl.channel.val ++ sl.tag ++ r.disposition.code ++
    BitVec.ofBool r.corrected ++ BitVec.ofBool r.clamped ++ r.result

/-- The response word: bit 34 makes the number of ones even (R48, R180). -/
def responseWord (sl : Slot) (r : Response) : BitVec 35 :=
  BitVec.ofBool (onesCount (responseBits sl r) % 2 == 1) ++ responseBits sl r

/-- The head slot's response word while the head is DONE (R51). -/
def State.offered (s : State) : Option (BitVec 35) :=
  match s.link.queue with
  | sl :: _ =>
    match sl.phase with
    | .done r => some (responseWord sl r)
    | _ => none
  | [] => none

/-- RS_OFFER (R51). -/
def State.rsOffer (s : State) : Bool := s.offered.isSome

/-- RS[34:0]: 0 while RS_OFFER is withheld (R180). -/
def State.rsWord (s : State) : BitVec 35 := s.offered.getD 0

/-- The link is open: RQ_TAKE is asserted while it is (R49). -/
def State.linkOpen (s : State) : Bool :=
  s.store.device == .running && s.link.enable && !s.link.linkRst &&
    decide (s.link.queue.length < 8)

/-- READY is given: it is withheld while an access is stretched (R157). -/
def State.ready (s : State) : Bool := s.host.stretch.isNone

end Sys2Proof.Machine
end

