-- ==== Sys2Proof/Machine/Operands.lean ====
section
/-! DEFINITION. How the part decodes the bits that a write, a command or a request word carries (11.2,
11.4, 11.5), the checks of the context window (3.3), and what each register and window field reads. -/

namespace Sys2Proof.Machine

/-! ## Banks, ranges and the fields of a context -/

/-- The bank range BASE to BASE + 2^k (R23). -/
def Bank.range (b : Bank) : AddrRange := ⟨b.base.toNat, b.base.toNat + 2 ^ b.order.toNat⟩

/-- An address lies in a range. -/
def AddrRange.has (r : AddrRange) (a : Nat) : Bool := decide (r.lo ≤ a ∧ a ≤ r.hi)

/-- Two ranges overlap when at least one address belongs to both (R23). -/
def AddrRange.overlaps (r q : AddrRange) : Bool := decide (r.lo ≤ q.hi ∧ q.lo ≤ r.hi)

/-- The bank of that name (R23). -/
def Context.bank (c : Context) : BankName → Bank
  | .a => c.bankA
  | .b => c.bankB

/-- The active bank (R23). -/
def Context.active (c : Context) : Bank := c.bank c.activeBank

/-- The inactive bank, the armed bank while ARMED is yes (R23). -/
def Context.inactive (c : Context) : Bank := c.bank c.activeBank.other

/-- STATE is ACTIVE or SUSPENDED. -/
def Context.live (c : Context) : Bool := c.state != .disabled

def Context.setBank (c : Context) (n : BankName) (b : Bank) : Context :=
  match n with
  | .a => { c with bankA := b }
  | .b => { c with bankB := b }

/-- The snapshot of the active bank descriptor and the output settings (R58). -/
def Context.snapshot (c : Context) : Snapshot where
  bank := c.active
  inOffset := c.inOffset
  clampLo := c.clampLo
  clampHi := c.clampHi
  policy := c.policy
  substitute := c.substitute

/-- The state with the record of channel `c` replaced. -/
def State.setChan (s : State) (c : Chan) (v : Context) : State :=
  s.setChannels (s.channels.set c v)

/-! ## Fields of written words -/

/-- The channel number of a COMMAND word's low byte, bits 3–0; bits 7–4 are ignored (R178). -/
def commandChannel (low : BitVec 8) : Chan := (low.extractLsb' 0 4).toFin

def requestParity (w : BitVec 29) : Bool := onesCount w % 2 == 1
def requestKind (w : BitVec 29) : BitVec 2 := w.extractLsb' 26 2
def requestChannel (w : BitVec 29) : Chan := (w.extractLsb' 22 4).toFin
def requestTag (w : BitVec 29) : BitVec 6 := w.extractLsb' 16 6
def requestSample (w : BitVec 29) : Data := w.extractLsb' 0 16

/-- The window that bits 15–14 of a WIN_ADDR write select (Table 11-2). -/
def decodeWindow (v : Data) : Window :=
  if v.extractLsb' 14 2 = 0 then .context
  else if v.extractLsb' 14 2 = 1 then .errorHead
  else if v.extractLsb' 14 2 = 2 then .completionHead
  else .spareMap

/-- The number of indexes of a window (Table 10-4). -/
def Window.size : Window → Nat
  | .context => 256
  | .errorHead => 8
  | .completionHead => 8
  | .spareMap => 32

/-- The POLICY a two-bit code names; code 3 names none (R28). -/
def decodePolicy (c : BitVec 2) : Option Policy :=
  if c = 0 then some .holdLast
  else if c = 1 then some .substitute
  else if c = 2 then some .reject
  else none

/-- The next index of a window, wrapping from its last to 0 (R170). -/
def nextIndex (w : Window) (i : BitVec 8) : BitVec 8 := BitVec.ofNat 8 ((i.toNat + 1) % w.size)

/-- The channel a CONTEXT window index names (3.3). -/
def indexChannel (i : BitVec 8) : Chan := (i.extractLsb' 4 4).toFin

/-- The field a CONTEXT window index names (3.3). -/
def indexField (i : BitVec 8) : Nat := (i.extractLsb' 0 4).toNat

/-! ## The CONTEXT window (R25 to R28, R181) -/

/-- A descriptor write on the bank of that name is LOCKED (R27). -/
def Context.locked (c : Context) (n : BankName) : Bool :=
  (n == c.activeBank && c.live) || (n != c.activeBank && c.armed)

/-- A descriptor keeps inside the address space: BASE + 2^k at most 8191 (R27). -/
def Bank.fits (b : Bank) : Bool := decide (b.base.toNat + 2 ^ b.order.toNat ≤ 8191)

/-- ORDER lies in 4–10 (R27). -/
def orderValid (k : BitVec 4) : Bool := decide (4 ≤ k.toNat ∧ k.toNat ≤ 10)

/-- A BASE write on one bank: bits 12–0 (R27, R181). -/
def Context.writeBase (c : Context) (n : BankName) (v : Data) : WinOutcome × Context :=
  let b := { c.bank n with base := v.extractLsb' 0 13 }
  if c.locked n then (.locked, c)
  else if b.fits then (.ok, c.setBank n b)
  else (.badValue, c)

/-- An ORDER and MODE write on one bank: bits 3–0 and bit 8 (R27, R181). -/
def Context.writeOrder (c : Context) (n : BankName) (v : Data) : WinOutcome × Context :=
  let b := { c.bank n with
    order := v.extractLsb' 0 4, mode := if v.getLsbD 8 then .linear else .nearest }
  if c.locked n then (.locked, c)
  else if orderValid b.order && b.fits then (.ok, c.setBank n b)
  else (.badValue, c)

/-- The outcome of a write of one field and the record after it (R26, R27, R28). -/
def Context.writeField (c : Context) (field : Nat) (v : Data) : WinOutcome × Context :=
  match field with
  | 1 => c.writeBase .a v
  | 2 => c.writeOrder .a v
  | 3 => c.writeBase .b v
  | 4 => c.writeOrder .b v
  | 5 => (.ok, { c with inOffset := v })
  | 6 => if v.sle c.clampHi then (.ok, { c with clampLo := v }) else (.badValue, c)
  | 7 => if c.clampLo.sle v then (.ok, { c with clampHi := v }) else (.badValue, c)
  | 8 =>
    match decodePolicy (v.extractLsb' 0 2) with
    | some p => (.ok, { c with policy := p })
    | none => (.badValue, c)
  | 9 => (.ok, { c with substitute := v })
  | 10 => (.ok, { c with suspendLimit := v.extractLsb' 0 8 })
  | _ => (.readOnly, c)

/-- ORDER and MODE in the positions of Table 11-7. -/
def Bank.orderWord (b : Bank) : Data := (b.mode.code <<< 8) ||| b.order.setWidth 16

/-- What one field of a context reads (R25, Table 11-7). -/
def Context.readField (c : Context) (field : Nat) : Data :=
  match field with
  | 0 => (c.activeBank.code <<< 8) ||| (bitWord c.armed <<< 4) ||| c.state.code
  | 1 => c.bankA.base.setWidth 16
  | 2 => c.bankA.orderWord
  | 3 => c.bankB.base.setWidth 16
  | 4 => c.bankB.orderWord
  | 5 => c.inOffset
  | 6 => c.clampLo
  | 7 => c.clampHi
  | 8 => c.policy.code
  | 9 => c.substitute
  | 10 => c.suspendLimit.setWidth 16
  | 11 => c.uncorrCount.setWidth 16
  | 12 => c.lastGood
  | 13 => c.swapFrame
  | _ => 0

/-! ## The other windows -/

/-- LOCATION in the positions of Table 11-8: bit 4 SPARE, bits 3–0 the slot. -/
def Place.locationWord : Place → Data
  | .main _ => 0
  | .spare k => 16 + BitVec.ofNat 16 k.val

/-- What one index of the ERROR_HEAD window reads of a record (Table 11-8). -/
def ErrorRecord.readField (r : ErrorRecord) (i : Nat) : Data :=
  match i with
  | 0 => (r.source.code <<< 4) ||| r.kind.code
  | 1 => r.address.setWidth 16
  | 2 => Place.locationWord r.place
  | 3 => r.syndrome.setWidth 16
  | 4 => match r.channel with
    | some c => BitVec.ofNat 16 c.val
    | none => 0xFFFF
  | 5 => r.count.setWidth 16
  | 6 => r.firstFrame
  | 7 => r.lastFrame
  | _ => 0

/-- What one index of the COMPLETION_HEAD window reads of a record (Table 11-9). -/
def Completion.readField (r : Completion) (i : Nat) : Data :=
  match i with
  | 0 => r.id.setWidth 16
  | 1 => r.kind.code
  | 2 => r.outcome.code
  | 3 => r.start.setWidth 16
  | 4 => BitVec.ofNat 16 r.wordsDone
  | 5 => BitVec.ofNat 16 r.correctedFound
  | 6 => BitVec.ofNat 16 r.uncorrFound
  | 7 => match r.slot with
    | some k => BitVec.ofNat 16 k.val
    | none => 0xFFFF
  | _ => 0

/-- The address of the valid entry whose SLOT names slot `k`, if there is one (R110). -/
def addressServed : List (Option MapEntry) → SlotNo → Option Addr
  | [], _ => none
  | some e :: rest, k => if e.slot = k then some e.address else addressServed rest k
  | none :: rest, k => addressServed rest k

/-- What an even index of the SPARE_MAP window reads: slot state and poison flag (Table 11-10). -/
def SpareSlot.stateWord (v : SpareSlot) : Data := (bitWord v.poison <<< 4) ||| v.state.code

/-- What an odd index of the SPARE_MAP window reads: the address a MAPPED slot serves (R110). -/
def Sparing.servedWord (sp : Sparing) (k : SlotNo) : Data :=
  if sp.slots[k].state = .mapped then
    match addressServed sp.map.toList k with
    | some a => a.setWidth 16
    | none => 0
  else 0

/-- What one index of the SPARE_MAP window reads (R110): index slot × 2 + field. -/
def Sparing.readField (sp : Sparing) (i : BitVec 8) : Data :=
  let k : SlotNo := (i.extractLsb' 1 4).toFin
  if i.getLsbD 0 then sp.servedWord k else sp.slots[k].stateWord

/-- What a read of WIN_DATA returns for the current window and index (R170). -/
def State.winData (s : State) : Data :=
  match s.host.window with
  | .context => s.channels[indexChannel s.host.index].readField (indexField s.host.index)
  | .errorHead =>
    match s.errors.records with
    | r :: _ => r.readField s.host.index.toNat
    | [] => 0
  | .completionHead =>
    match s.maint.completions with
    | r :: _ => r.readField s.host.index.toNat
    | [] => 0
  | .spareMap => s.sparing.readField s.host.index

/-! ## The register window -/

/-- What a read of the register selected by HA[4:0] returns (R156, R159, Table 11-1). For TABLE_DATA
it is the value a read without a stretch returns: the held word, or 0 in START_UP (R162, R167). -/
def State.readRegister (s : State) (sel : BitVec 5) : BitVec 16 :=
  match sel.toNat with
  | 0x00 => 0x8161
  | 0x01 => s.deviceStatus
  | 0x02 => s.intStatus.setWidth 16
  | 0x03 => s.host.intEnable.setWidth 16
  | 0x05 => s.commandResult
  | 0x06 => s.host.timebase.setWidth 16
  | 0x07 => s.patrolCtrl
  | 0x08 => s.patrol.interval
  | 0x09 => s.patrol.pointer.setWidth 16
  | 0x0A => s.patrol.passes
  | 0x0B => bitWord s.link.enable
  | 0x0C => s.link.timeout
  | 0x0D => s.link.frame
  | 0x0E => s.host.pointer.setWidth 16
  | 0x0F => match s.host.holder with
    | .full d _ => d
    | _ => 0
  | 0x10 => s.tablePortStatus
  | 0x11 => s.host.refusedAddress.setWidth 16
  | 0x12 => s.winAddr
  | 0x13 => s.winData
  | 0x14 => s.host.winStatus.code
  | 0x15 => s.maint.argA
  | 0x16 => s.maint.argB
  | 0x17 => s.maint.argC
  | 0x18 => s.errors.loss.setWidth 16
  | _ => 0

end Sys2Proof.Machine
end

