-- ==== Sys2Proof/Machine/Protect.lean ====
section
/-! DEFINITION. The protected set (3.7), the counting FILL ranges (8.6), and the reports of lookups to
their channels (3.6). -/

namespace Sys2Proof.Machine

/-! ## The protected set (R44) -/

/-- Parts (a) and (b) for one channel: its active bank while ACTIVE or SUSPENDED, and its armed
bank. -/
def Context.protectedRanges (c : Context) : List AddrRange :=
  (if c.live then [c.active.range] else []) ++ (if c.armed then [c.inactive.range] else [])

/-- The bound range of a slot in WAITING or READING (part (c)). -/
def Slot.boundRanges (sl : Slot) : List AddrRange :=
  match sl.phase with
  | .waiting _ snap => [snap.bank.range]
  | .reading _ snap => [snap.bank.range]
  | .done _ => []

/-- The bound range of a discarded slot whose granted read has not completed (part (c)). -/
def Engine.boundRanges : Engine → List AddrRange
  | .draining _ b _ => [b.range]
  | _ => []

/-- The ranges whose union is the protected set at this moment (R44). -/
def State.protectedRanges (s : State) : List AddrRange :=
  s.channels.toList.flatMap Context.protectedRanges ++
    (s.link.queue.flatMap Slot.boundRanges ++ s.engine.boundRanges)

/-- The address lies in the protected set. -/
def State.isProtected (s : State) (a : Nat) : Bool := s.protectedRanges.any (·.has a)

/-- Some address of the range lies in the protected set (R124). -/
def State.rangeProtected (s : State) (r : AddrRange) : Bool :=
  s.protectedRanges.any (·.overlaps r)

/-! ## The counting FILL ranges (R36, R138) -/

/-- The range of a job: start to start + count − 1. -/
def Job.range (j : Job) : AddrRange := ⟨j.start.toNat, j.start.toNat + j.count - 1⟩

/-- The jobs queued or running, running first. -/
def Maint.live (m : Maint) : List Job := (m.run.map RunningJob.job).toList ++ m.queue

/-- The range of every FILL job queued or running. -/
def Maint.fillRanges (m : Maint) : List AddrRange :=
  (m.live.filter (fun j => j.kind == .fill)).map Job.range

/-- A bank range overlaps the range of a counting FILL job (R36). -/
def Maint.fillOverlaps (m : Maint) (r : AddrRange) : Bool := m.fillRanges.any (·.overlaps r)

/-! ## Reports from lookups (R39 to R43) -/

/-- The count of a report that met a faulty read, and the suspension test (R39, R40). -/
def Context.countFaulty (c : Context) : Context :=
  let n := satInc c.uncorrCount
  { c with
    uncorrCount := n
    state := if c.suspendLimit ≠ 0 ∧ c.suspendLimit ≤ n ∧ c.state = .active then .suspended
      else c.state }

/-- A counting report reaches channel `ch`; the SUSPENDED flag is set if the channel goes from ACTIVE
to SUSPENDED (R40). -/
def State.reportFaulty (s : State) (ch : Chan) : State :=
  let c := s.channels[ch]
  let s' := s.setChan ch c.countFaulty
  if c.state = .active ∧ c.countFaulty.state = .suspended then s'.raiseSuspended else s'

/-- A report whose disposition is OK gives LAST_GOOD its result (R41). -/
def State.reportGood (s : State) (ch : Chan) (result : Data) : State :=
  s.setChan ch { s.channels[ch] with lastGood := result }

end Sys2Proof.Machine
end

