-- ==== Sys2Proof/Machine/ErrorLog.lean ====
section
/-! DEFINITION. Filing a detection with the error record queue (chapter 6). -/

namespace Sys2Proof.Machine

/-- The kind of a detection by read outcome; a CLEAN read is none (R10). -/
def ReadOutcome.kind : ReadOutcome → Option ErrorKind
  | .clean => none
  | .corrected => some .corrected
  | .uncorrectable => some .uncorrectable
  | .poisoned => some .poisoned

/-- The record matches the detection: same ADDRESS and KIND (R91). -/
def ErrorRecord.matchesDet (r : ErrorRecord) (d : Detection) : Bool :=
  r.address == d.address && r.kind == d.kind

/-- The record with the detection coalesced into it (R92). -/
def ErrorRecord.coalesce (r : ErrorRecord) (frame : BitVec 16) : ErrorRecord :=
  { r with count := satInc r.count, lastFrame := frame }

/-- The records with the detection coalesced into the first that matches. -/
def coalesceFirst (d : Detection) (frame : BitVec 16) : List ErrorRecord → List ErrorRecord
  | [] => []
  | r :: rs => if r.matchesDet d then r.coalesce frame :: rs else r :: coalesceFirst d frame rs

/-- The record a detection creates (R93). -/
def Detection.record (d : Detection) (frame : BitVec 16) : ErrorRecord where
  kind := d.kind
  source := d.source
  address := d.address
  place := d.place
  syndrome := d.syndrome
  channel := d.channel
  count := 1
  firstFrame := frame
  lastFrame := frame

/-- The records without the CORRECTED record nearest the head (R94). -/
def removeOldestCorrected : List ErrorRecord → List ErrorRecord
  | [] => []
  | r :: rs => if r.kind = .corrected then rs else r :: removeOldestCorrected rs

/-- The queue after one filing, and the result handed back (Table 6-2, R92 to R96, R98). -/
def ErrorQueue.file (q : ErrorQueue) (d : Detection) (frame : BitVec 16) :
    ErrorQueue × FilingResult :=
  match q.records.find? (·.matchesDet d) with
  | some r =>
    ({ q with records := coalesceFirst d frame q.records }, .coalesced (satInc r.count))
  | none =>
    if q.records.length < 16 then
      ({ q with records := q.records ++ [d.record frame] }, .created)
    else if d.kind ≠ .corrected ∧ q.records.any (fun r => r.kind == .corrected) then
      ({ records := removeOldestCorrected q.records ++ [d.record frame], loss := satInc q.loss },
        .displacing)
    else ({ q with loss := satInc q.loss }, .dropped)

/-- The COUNT a filing hands back; a dropped filing hands back none (R98). -/
def FilingResult.count : FilingResult → Option (BitVec 8)
  | .coalesced n => some n
  | .created => some 1
  | .displacing => some 1
  | .dropped => none

/-- The filing lost a record or a detection (R96). -/
def FilingResult.loses : FilingResult → Bool
  | .displacing => true
  | .dropped => true
  | _ => false

/-- The state after a detection is filed: the queue, LOG_UNCORR and LOG_LOSS (R91 to R97). -/
def State.fileDetection (s : State) (d : Detection) : State :=
  let r := s.errors.file d s.link.frame
  s.setErrors r.1 |>.setFlags { s.host.flags with
    logUncorr := s.host.flags.logUncorr || d.kind != .corrected
    logLoss := s.host.flags.logLoss || r.2.loses }

/-- The state after a completed read files its detection, if its outcome is not CLEAN (R10). -/
def State.fileRead (s : State) (r : ReadResult) (src : Source) (ch : Option Chan) : State :=
  match r.outcome.kind with
  | none => s
  | some k =>
    s.fileDetection
      { kind := k, source := src, address := r.address, place := r.place
        syndrome := r.syndrome, channel := ch }

/-- The COUNT handed back for a completed read filed now; none for a CLEAN read (R98). -/
def State.filedCount (s : State) (r : ReadResult) (src : Source) (ch : Option Chan) :
    Option (BitVec 8) :=
  match r.outcome.kind with
  | none => none
  | some k =>
    (s.errors.file
      { kind := k, source := src, address := r.address, place := r.place
        syndrome := r.syndrome, channel := ch } s.link.frame).2.count

end Sys2Proof.Machine
end

