-- ==== Sys2Proof/Machine/Sched.lean ====
section
/-! DEFINITION. The maintenance engine's scheduling, which jobs and the patrol share: starting and
ending jobs (8.3), starting and ending patrol steps (9.3 to 9.7), and the retire operation's start and
end (7.4). No operation of this file touches the store but for the claimed-word mark: a claim is what
these records ask for (Machine/Arbiter.lean). -/

namespace Sys2Proof.Machine

/-! ## The patrol between steps -/

/-- A step starts: the pointer's address, the cancel mark clear, CLAIMING (R147). -/
def Patrol.startStep (p : Patrol) : Patrol :=
  { p with
    phase := .claiming
    timer := none
    step := some
      { address := p.pointer, outcome := none, data := 0, cancel := false, retiring := false } }

/-- Where the patrol goes when no step is in progress: OFF, YIELDING, PACING with the timer at 0, or
a new step at once with PATROL_INTERVAL 0 (R144, R153, R154). -/
def Patrol.resume (p : Patrol) (busy : Bool) : Patrol :=
  if !p.enable then { p with phase := .off, timer := none }
  else if busy then { p with phase := .yielding, timer := none }
  else if p.interval = 0 then p.startStep
  else { p with phase := .pacing, timer := some 0 }

/-- The same, in the state. -/
def State.resumePatrol (s : State) : State := s.setPatrol (s.patrol.resume s.maint.busy)

/-! ## Jobs (R127, R131) -/

/-- A fresh progress record (R127). -/
def Job.fresh (j : Job) : RunningJob :=
  { job := j, wordsDone := 0, correctedFound := 0, uncorrFound := 0, stopping := false }

/-- The head of the job queue starts if no job is running and no patrol step is in progress (R127). A
RETIRE job starts its retire operation (R111, R130). -/
def State.startJob (s : State) : State :=
  match s.maint.run, s.patrol.step, s.maint.queue with
  | none, none, j :: rest =>
    let s' := s.setMaint { s.maint with run := some j.fresh, queue := rest }
    match j.kind with
    | .retire =>
      s'.setSparing { s'.sparing with
        retire := some { address := j.start, source := .job, phase := .read } }
    | _ => s'
  | _, _, _ => s

/-- If engine busy has cleared, a YIELDING patrol goes on (R146). -/
def State.leaveYielding (s : State) : State :=
  if s.maint.busy = false ∧ s.patrol.phase = .yielding then s.resumePatrol else s

/-- The completion record of a running job (Table 8-3). -/
def RunningJob.completion (j : RunningJob) (o : JobOutcome) (slot : Option SlotNo) : Completion where
  id := j.job.id
  kind := j.job.kind
  outcome := o
  start := j.job.start
  wordsDone := j.wordsDone
  correctedFound := j.correctedFound
  uncorrFound := j.uncorrFound
  slot := slot

/-- The completion record of a job aborted while queued (R136). -/
def Job.abortedRecord (j : Job) : Completion := j.fresh.completion .aborted none

/-- The running job `j` ends: its record is appended, the head job starts, and a YIELDING patrol goes
on if engine busy clears (R131, R146). -/
def State.endJob (s : State) (j : RunningJob) (o : JobOutcome) (slot : Option SlotNo) : State :=
  (s.setMaint { s.maint with
    run := none, completions := s.maint.completions ++ [j.completion o slot] }).startJob.leaveYielding

/-- The job accepted now (R121, R122, R123): it takes a ticket and the next ID and joins the tail. -/
def Maint.accept (m : Maint) (kind : JobKind) (start : Addr) (count : Nat) (value : Data) : Maint :=
  { m with
    ticketsFree := m.ticketsFree - 1
    queue := m.queue ++ [{ kind := kind, id := m.nextId, start := start, count := count, value := value }]
    nextId := m.nextId + 1 }

/-- A patrol that paces yields at the acceptance of a job; its elapsed time is discarded (R146). -/
def Patrol.yieldToJob (p : Patrol) : Patrol :=
  if p.phase = .pacing then { p with phase := .yielding, timer := none } else p

/-! ## The end of a patrol step (R142, R153) -/

/-- PATROL_POINTER advances and PATROL_PASSES counts a wrap; the step record is discarded. -/
def Patrol.advance (p : Patrol) : Patrol :=
  { p with
    pointer := p.pointer + 1
    passes := if p.pointer = 8191 then p.passes + 1 else p.passes
    step := none }

/-- The state with the claimed-word mark released (R16). -/
def State.releaseMark (s : State) : State := s.setStore { s.store with mark := none }

/-- The step in progress ends: mark released, pointer advanced, record discarded; the head job starts;
the patrol enters OFF, YIELDING, PACING or a new step (R153). -/
def State.endStep (s : State) : State :=
  ((s.releaseMark).setPatrol s.patrol.advance).startJob.resumePatrol

/-! ## The end of a retire operation (R118) -/

/-- Whether one read counts as CORRECTED, and as UNCORRECTABLE or POISONED (R129, R130). -/
def ReadOutcome.correctedCount (o : ReadOutcome) : Nat := if o = .corrected then 1 else 0
def ReadOutcome.uncorrCount (o : ReadOutcome) : Nat := if o.faulty then 1 else 0

/-- The state without a retire operation. -/
def State.clearRetire (s : State) : State := s.setSparing { s.sparing with retire := none }

/-- The RETIRE job ends with the operation's outcome; its one read is counted (R130). -/
def State.endRetireJob (s : State) (out : ReadOutcome) (o : JobOutcome) (slot : Option SlotNo) :
    State :=
  match s.maint.run with
  | some j =>
    s.clearRetire.releaseMark.endJob
      { j with wordsDone := 1, correctedFound := out.correctedCount, uncorrFound := out.uncorrCount }
      o slot
  | none => s.clearRetire.releaseMark

/-- What the step of a patrol does with NO_SPARE: it ends without writing if its cancel mark is set or
the retire's read was faulty, and otherwise falls back to a write-back of that read's data (R152). -/
def State.patrolNoSpare (s : State) (r : ReadResult) : State :=
  match s.patrol.step with
  | some st =>
    if st.cancel || r.outcome.faulty then s.clearRetire.endStep
    else s.clearRetire.setPatrol { s.patrol with
      step := some { st with data := r.data, retiring := false } }
  | none => s.clearRetire

end Sys2Proof.Machine
end

