-- ==== Sys2Proof/Machine/Arbiter.lean ====
section
/-! DEFINITION. Claims and the store arbiter (2.5), the host write report (2.6), the grant of a posted
write (R164, R165), and what each grant does. A claim is what a claimant's records ask for and the
store has not granted (log entry 8). -/

namespace Sys2Proof.Machine

/-! ## The lookup engine's claim -/

/-- Channel, sample and snapshot of the READING slot nearest the head: the engine's current slot. -/
def readingSlot : List Slot → Option (Chan × Snapshot)
  | [] => none
  | sl :: rest =>
    match sl.phase with
    | .reading _ snap => some (sl.channel, snap)
    | _ => readingSlot rest

/-- Interval size F = 2^(16−k) (Table 5-3). -/
def Bank.interval (b : Bank) : Nat := 2 ^ (16 - b.order.toNat)

/-- Half-interval H = 2^(15−k) (Table 5-3). -/
def Bank.half (b : Bank) : Nat := 2 ^ (15 - b.order.toNat)

/-- The main address of entry e[j] (R23, R72). -/
def Bank.entry (b : Bank) (j : Nat) : Addr := BitVec.ofNat 13 (b.base.toNat + j)

/-- The entry the first read names: e[i] for LINEAR; for NEAREST e[i] if f < H, else e[i+1] (R73,
R74). -/
def firstEntryIndex (snap : Snapshot) (p : Progress) : Nat :=
  match snap.bank.mode with
  | .linear => p.index
  | .nearest => if p.fraction < snap.bank.half then p.index else p.index + 1

/-- The address of the read that the lookup engine has to make now, granted or not. -/
def State.lookupWants (s : State) : Option Addr :=
  match s.engine, readingSlot s.link.queue with
  | .firstRead p, some (_, snap) => some (snap.bank.entry (firstEntryIndex snap p))
  | .secondRead p _, some (_, snap) => some (snap.bank.entry (p.index + 1))
  | _, _ => none

/-- The access in progress is one of this claimant. -/
def State.accessOf (s : State) (c : Claimant) : Bool :=
  match s.store.access with
  | some a => a.claimant == c
  | none => false

/-- The lookup engine's waiting claim (R11). -/
def State.lookupClaim (s : State) : Option Addr :=
  if s.accessOf .lookup then none else s.lookupWants

/-! ## The host table port's claim -/

/-- The host table port's waiting claim: its posted write, or, with none outstanding, the prefetch of
a PENDING holder; nothing while the port has an access in progress (2.5, R160, R163). -/
def State.hostClaim (s : State) : Option HostClaim :=
  if s.accessOf .host then none
  else if s.host.posted.isSome then some .postedWrite
  else if s.host.holder = .pending then some .prefetch
  else none

/-! ## The maintenance engine's claim -/

/-- The next address of a running FILL or VERIFY job (R128, R129). -/
def RunningJob.next (j : RunningJob) : Addr := BitVec.ofNat 13 (j.job.start.toNat + j.wordsDone)

/-- What a running FILL or VERIFY job asks for; a stopping job asks for nothing more (R128, R129,
R136). A RETIRE job asks through its retire operation. -/
def RunningJob.wants (j : RunningJob) : Option MaintClaim :=
  if j.stopping then none
  else
    match j.job.kind with
    | .fill => some (.write .fill j.next j.job.value)
    | .verify => some (.plainRead .verify j.next)
    | .retire => none

/-- What a retire operation asks for: its claiming read, then its spare write, which carries the copy
as it stands at the grant (R112, R113). -/
def RetireOp.wants (r : RetireOp) : MaintClaim :=
  match r.phase with
  | .read => .claimingRead .retire r.address
  | .write c => .spareWrite c.slot c.copy

/-- What a patrol step asks for: its claiming read in CLAIMING, its write-back in REPAIRING (R147,
R149). -/
def Patrol.wants (p : Patrol) : Option MaintClaim :=
  match p.phase, p.step with
  | .claiming, some st => some (.claimingRead .patrol st.address)
  | .repairing, some st =>
    if st.retiring then none else some (.write .writeBack st.address st.data)
  | _, _ => none

/-- The access that the maintenance engine has to make now, granted or not: the retire operation's,
else the running job's, else the patrol step's. -/
def State.maintWants (s : State) : Option MaintClaim :=
  match s.sparing.retire with
  | some r => some r.wants
  | none =>
    match s.maint.run with
    | some j => j.wants
    | none => s.patrol.wants

/-- The access in progress is the maintenance engine's, and its operation still awaits it: an access
orphaned by a soft reset is none of the operation now running (R21). -/
def State.maintGranted (s : State) : Bool :=
  match s.store.access with
  | some a => a.claimant == .maint && a.interest == .wanted
  | none => false

/-- The maintenance engine's waiting claim (R11). -/
def State.maintClaim (s : State) : Option MaintClaim :=
  if s.maintGranted then none else s.maintWants

/-! ## The choice (Table 2-7) -/

/-- The host wait count is due (R12). -/
def State.hostDue (s : State) : Bool := s.store.hostWait == 4

/-- The maintenance wait count is due (R13). -/
def State.maintDue (s : State) : Bool := decide (s.patrol.share.toNat ≤ s.store.maintWait)

/-- The claimant that the arbiter grants, the first row of Table 2-7 that holds. -/
def State.choose (s : State) : Option Claimant :=
  let h := s.hostClaim.isSome
  let m := s.maintClaim.isSome
  if h && s.hostDue then some .host
  else if m && s.maintDue then some .maint
  else if s.lookupClaim.isSome then some .lookup
  else if h then some .host
  else if m then some .maint
  else none

/-- The wait counts after a grant to a claimant (R12, R13). -/
def State.countGrant (s : State) (c : Claimant) : Store :=
  let hw := if s.hostClaim.isSome then min 4 (s.store.hostWait + 1) else s.store.hostWait
  let mw := if s.maintClaim.isSome then min 16 (s.store.maintWait + 1) else s.store.maintWait
  match c with
  | .lookup => { s.store with hostWait := hw, maintWait := mw }
  | .host => { s.store with hostWait := 0, maintWait := mw }
  | .maint => { s.store with maintWait := 0 }

/-! ## The host write report (R17, R115, R150) -/

/-- A carried-out write of `d` to the retire operation's address replaces its copy and clears its
poison mark, between its read and its spare write (R115). -/
def RetireOp.report (r : RetireOp) (a : Addr) (d : Data) : RetireOp :=
  match r.phase with
  | .write c =>
    if r.address = a then { r with phase := .write { c with copy := d, poison := false } } else r
  | .read => r

/-- The maintenance engine's wait count returns to 0 when its waiting claim is withdrawn (R13). -/
def State.withdrawMaint (s : State) : State := s.setStore { s.store with maintWait := 0 }

/-- The step's part in a report of a carried-out write: the cancel mark is set, and a waiting
write-back is withdrawn and the step ends (R150). -/
def State.cancelStep (s : State) (a : Addr) : State :=
  match s.patrol.step with
  | some st =>
    if st.address = a then
      let s' := s.setPatrol { s.patrol with step := some { st with cancel := true } }
      if s.patrol.phase = .repairing ∧ st.retiring = false then s'.withdrawMaint.endStep else s'
    else s
  | none => s

/-- The store reports a carried-out host write on the claimed word (R17). -/
def State.reportHostWrite (s : State) (a : Addr) (d : Data) : State :=
  (s.setSparing { s.sparing with retire := s.sparing.retire.map (·.report a d) }).cancelStep a

/-! ## Grants -/

/-- A refused posted write is counted, may latch its address, and sets WRITE_REFUSED (R165). -/
def State.countRefusal (s : State) (a : Addr) : State :=
  s.setHost { s.host with
    refusedCount := satInc s.host.refusedCount
    refusedAddress := if s.host.refusedCount = 0 then a else s.host.refusedAddress
    flags := { s.host.flags with writeRefused := true } }

/-- The grant of the posted write `p`: refused inside the protected set, else taken, and reported if
it is taken on the claimed word (R164, R17). -/
def State.grantPosted (s : State) (p : Posted) : State :=
  if s.isProtected p.address.toNat then
    (s.setAccess (some (.write .posted none .wanted))).countRefusal p.address
  else
    let s' := (s.writeData p.address p.data).setAccess
      (some (.write .posted (some (s.resolve p.address).key) .wanted))
    if s.store.mark = some p.address then s'.reportHostWrite p.address p.data else s'

/-- The grant of a maintenance claim (R9, R16, R147). -/
def State.grantMaint (s : State) (c : MaintClaim) : State :=
  match c with
  | .plainRead t a => s.setAccess (some (.read t (s.sense a) .wanted))
  | .claimingRead t a =>
    let s' := s.setStore { s.store with
      access := some (.read t (s.sense a) .wanted), mark := some a }
    match t with
    | .patrol => s'.setPatrol { s'.patrol with phase := .checking }
    | _ => s'
  | .write t a d => (s.writeData a d).setAccess (some (.write t (some (s.resolve a).key) .wanted))
  | .spareWrite k d =>
    (s.putWord (Place.spare k).key (encodeWord d)).setAccess
      (some (.write .spare (some (Place.spare k).key) .wanted))

/-- The grant of the host table port's claim (R161, R164). -/
def State.grantHost (s : State) (c : HostClaim) : State :=
  match c, s.host.posted with
  | .postedWrite, some p => s.grantPosted p
  | _, _ => s.setAccess (some (.read .prefetch (s.sense s.host.pointer) .wanted))

/-- One grant: the wait counts, then the access (R11 to R13). -/
def State.grant (s : State) (c : Claimant) : State :=
  let s' := s.setStore (s.countGrant c)
  match c with
  | .lookup =>
    match s.lookupClaim with
    | some a => s'.setAccess (some (.read .lookup (s.sense a) .wanted))
    | none => s
  | .host =>
    match s.hostClaim with
    | some h => s'.grantHost h
    | none => s
  | .maint =>
    match s.maintClaim with
    | some m => s'.grantMaint m
    | none => s

/-- At the end of an event, if the device is RUNNING, the store is free and a claim waits, the arbiter
grants one (R11). -/
def State.settle (s : State) : State :=
  if s.store.device = .running ∧ s.store.access = none then
    match s.choose with
    | some c => s.grant c
    | none => s
  else s

/-! ## The grant owed by the end of the start-up fill (R11, R179) -/

/-- The one claim that waits is a patrol step's claiming read (R147). -/
def State.onlyTheStepWaits (s : State) : Bool :=
  match s.maintClaim with
  | some (.claimingRead .patrol _) => s.lookupClaim.isNone && s.hostClaim.isNone
  | _ => false

/-- The state once the arbiter has made the grant it owes. The end of the start-up fill leaves the step
that it starts in CLAIMING on a free store (R179); no other event leaves such a claim, so in every other
state this changes nothing (log entry 22). -/
def State.grantOwed (s : State) : State := if s.onlyTheStepWaits then s.settle else s

/-- One event of the part: an owed grant comes at once, before anything the event does (R11), and then
the event's own effect `f`. -/
def State.event (s : State) (f : State → State) : Host.Outcome State Fault Refusal :=
  .next (f s.grantOwed)

/-! ## A completion and the withdrawal of its next claim, together (R87, R137) -/

/-- The command that waits next withdraws this claimant's claim: a link reset or soft reset the lookup
engine's (R87), ABORT_JOBS a FILL or VERIFY job's (R137). A host access that READY holds back withdraws
nothing yet. -/
def State.withdrawalWaits (s : State) (c : Claimant) : Bool :=
  match s.pending, c with
  | .linkRstAssert :: _, .lookup => true
  | .softReset _ :: _, .lookup => s.host.stretch.isNone
  | .abortJobs _ :: _, .maint => s.host.stretch.isNone
  | _, _ => false

/-- The end of a completion that presents its claimant's next claim. If that claim is the arbiter's
choice and the next command withdraws it, the two events come together: the claim is presented and not
granted, and it is withdrawn at that command (R87, R137, log entry 21). -/
def State.settleTogether (s : State) (c : Claimant) : State :=
  if s.choose = some c ∧ s.withdrawalWaits c = true then s else s.settle

end Sys2Proof.Machine
end

