-- ==== Sys2Proof/Machine/Evaluate.lean ====
section
/-! DEFINITION. The lookup engine's work on a slot (chapter 5): taking a slot, the offset and index
steps, the arithmetic, the clamp, the disposition and the completion; and the offer of the head
response with its stall timer (4.3, 4.6). -/

namespace Sys2Proof.Machine

/-! ## The offer of the head and the stall timer (R51, R61) -/

/-- The slot is DONE. -/
def Slot.isDone (sl : Slot) : Bool :=
  match sl.phase with
  | .done _ => true
  | _ => false

/-- The head slot is DONE, so its response is offered (R51). -/
def headDone : List Slot → Bool
  | sl :: _ => sl.isDone
  | [] => false

/-- The stall timer after the queue has changed with the same head still in place or newly offered: it
starts at 0 when an offer begins, keeps counting while the offer stands, and is stopped while nothing
is offered (R61). -/
def Link.refreshOffer (l : Link) : Link :=
  if headDone l.queue then
    match l.stall with
    | some _ => l
    | none => { l with stall := some { elapsed := 0, expired := false } }
  else { l with stall := none }

/-! ## Offset, index and fraction (R70, R71) -/

/-- The offset step: x and "offset clamped" (R70). -/
def offsetStep (sample offset : Data) : Nat × Bool :=
  if offset.toNat ≤ sample.toNat then (sample.toNat - offset.toNat, false) else (0, true)

/-- The progress record a slot starts with (R69 to R71). -/
def startProgress (sample : Data) (snap : Snapshot) : Progress :=
  let x := offsetStep sample snap.inOffset
  { x := x.1
    offsetClamped := x.2
    index := x.1 / snap.bank.interval
    fraction := x.1 % snap.bank.interval
    anyCorrected := false
    anyFaulty := false }

/-- Makes the WAITING slot nearest the head READING, and gives its sample and snapshot (R69). -/
def takeWaiting : List Slot → Option (Data × Snapshot × List Slot)
  | [] => none
  | sl :: rest =>
    match sl.phase with
    | .waiting sample snap => some (sample, snap, { sl with phase := .reading sample snap } :: rest)
    | _ =>
      match takeWaiting rest with
      | some (sample, snap, rest') => some (sample, snap, sl :: rest')
      | none => none

/-- An IDLE engine takes the WAITING slot nearest the head, if there is one (R69). -/
def State.takeSlot (s : State) : State :=
  match s.engine, takeWaiting s.link.queue with
  | .idle, some (sample, snap, q) =>
    (s.setLink { s.link with queue := q }).setEngine (.firstRead (startProgress sample snap))
  | _, _ => s

/-! ## Arithmetic (R76 to R79) -/

/-- The interpolated value a + floor((d × f + H) / F) (R77). -/
def interpolate (b : Bank) (a e : Data) (f : Nat) : Int :=
  a.toInt + ((e.toInt - a.toInt) * (f : Int) + (b.half : Int)) / (b.interval : Int)

/-- The output clamp: the result, and whether the clamp has acted (R79). -/
def clampOutput (snap : Snapshot) (y : Int) : Data × Bool :=
  if y < snap.clampLo.toInt then (snap.clampLo, true)
  else if snap.clampHi.toInt < y then (snap.clampHi, true)
  else (BitVec.ofInt 16 y, false)

/-- "Any corrected" and "any faulty" after one more read (Table 5-1). -/
def Progress.note (p : Progress) (o : ReadOutcome) : Progress :=
  { p with
    anyCorrected := p.anyCorrected || o == .corrected
    anyFaulty := p.anyFaulty || o.faulty }

/-- The response of a lookup whose reads were all CLEAN or CORRECTED (R80, R82). -/
def okResponse (snap : Snapshot) (p : Progress) (y : Int) : Response :=
  let c := clampOutput snap y
  { disposition := .ok, corrected := p.anyCorrected, clamped := p.offsetClamped || c.2, result := c.1 }

/-- The response of a lookup with a faulty read, by the snapshot's POLICY (R81, R82); `lastGood` is
the channel's LAST_GOOD at the completion. -/
def faultyResponse (snap : Snapshot) (p : Progress) (lastGood : Data) : Response :=
  match snap.policy with
  | .holdLast =>
    { disposition := .held, corrected := false, clamped := p.offsetClamped, result := lastGood }
  | .substitute =>
    { disposition := .substituted, corrected := false, clamped := p.offsetClamped
      result := snap.substitute }
  | .reject =>
    { disposition := .rejected, corrected := false, clamped := p.offsetClamped, result := 0 }

/-- The response of a lookup whose last read has been noted in `p` (R80, R81). -/
def lookupResponse (snap : Snapshot) (p : Progress) (y : Int) (lastGood : Data) : Response :=
  if p.anyFaulty then faultyResponse snap p lastGood else okResponse snap p y

/-! ## Completion (R80, R84) -/

/-- Makes the READING slot nearest the head DONE with a response (R80). -/
def finishReading (r : Response) : List Slot → List Slot
  | [] => []
  | sl :: rest =>
    match sl.phase with
    | .reading _ _ => { sl with phase := .done r } :: rest
    | _ => sl :: finishReading r rest

/-- The completion report of one lookup (R84): a counting report if a read was faulty, LAST_GOOD if
the disposition is OK. -/
def State.report (s : State) (ch : Chan) (p : Progress) (r : Response) : State :=
  if p.anyFaulty then s.reportFaulty ch else s.reportGood ch r.result

/-- The lookup completion of the current slot: DONE with its response, the report, and the next
WAITING slot taken or the engine IDLE (R80). -/
def State.completeLookup (s : State) (ch : Chan) (snap : Snapshot) (p : Progress) (y : Int) : State :=
  let r := lookupResponse snap p y s.channels[ch].lastGood
  ((((s.report ch p r).setEngine .idle).setLink
    ({ s.link with queue := finishReading r s.link.queue } : Link).refreshOffer)).takeSlot

/-- The engine drops its current slot at a link or soft reset: DRAINING if its read is granted, else
IDLE with its claim withdrawn (R86). -/
def State.dropEngine (s : State) : Engine :=
  match s.engine, readingSlot s.link.queue with
  | .firstRead p, some (ch, snap) =>
    if s.accessOf .lookup then .draining ch snap.bank p.anyFaulty else .idle
  | .secondRead p _, some (ch, snap) =>
    if s.accessOf .lookup then .draining ch snap.bank p.anyFaulty else .idle
  | .draining ch b faulty, _ => .draining ch b faulty
  | _, _ => .idle

end Sys2Proof.Machine
end

