-- ==== Sys2Proof/Machine/TablePort.lean ====
section
/-! DEFINITION. The host table port (10.2): its completions and its registers. -/

namespace Sys2Proof.Machine

/-- A host access takes place unless a stretched one holds the bus (R157, log entry 7). -/
def State.whenBusFree (s : State) (f : State → State) : Host.Outcome State Fault Refusal :=
  s.event fun s => if s.host.stretch.isSome then s else f s

/-- The value a host read ends with. -/
def State.returnData (s : State) (d : Data) : State :=
  s.setOutputs { s.outputs with readData := d }

/-! ## Pointer changes -/

/-- The store with the prefetch of the old pointer discarded: a waiting claim is withdrawn, which
returns the host wait count to 0; a granted read runs on as stale (R160, R11, R12). -/
def State.discardPrefetch (s : State) : Store :=
  match s.store.access with
  | some (.read .prefetch r .wanted) => { s.store with access := some (.read .prefetch r .stale) }
  | _ => if s.hostClaim = some .prefetch then { s.store with hostWait := 0 } else s.store

/-- TABLE_POINTER becomes `a`: the old prefetch is discarded and the holder is PENDING for the new
pointer, whose prefetch the port presents when it has no other access outstanding (R160). -/
def State.movePointer (s : State) (a : Addr) : State :=
  (s.setStore s.discardPrefetch).setHost { s.host with pointer := a, holder := .pending }

/-- A TABLE_DATA read ends with `d`: the pointer advances and a prefetch of the new pointer is pending
(R162). -/
def State.endTableRead (s : State) (d : Data) : State :=
  (s.setHost { s.host with
    pointer := s.host.pointer + 1, holder := .pending, stretch := none }).returnData d

/-- The posting of a write of `v` to the pointer's address (R163). -/
def State.postWrite (s : State) (v : Data) : State :=
  let s' := s.movePointer (s.host.pointer + 1)
  s'.setHost { s'.host with posted := some ⟨s.host.pointer, v⟩, stretch := none }

/-! ## Completions -/

/-- The holder takes a prefetch still wanted, and a stretched read ends with its data (R161, R162). -/
def State.fillHolder (s : State) (r : ReadResult) : State :=
  match s.host.stretch with
  | some .read => s.endTableRead r.data
  | _ => s.setHost { s.host with holder := .full r.data r.outcome }

/-- A completed prefetch that a soft reset has not taken: detection filed, PREFETCH_OUTCOME set, and
the holder filled if the prefetch is still the current one (R161). -/
def State.prefetchDone (s : State) (r : ReadResult) (i : Interest) : State :=
  let s1 := s.fileRead r .host none
  let s2 := s1.setHost { s1.host with outcome := r.outcome.shown }
  if i = .wanted then s2.fillHolder r else s2

/-- PREFETCH_COMPLETION (R161, R162, R177): with no prefetch in progress there is no such completion
(log entry 4). -/
def execPrefetchCompletion (s : State) : Host.Outcome State Fault Refusal :=
  s.event fun s =>
    match s.store.access with
    | some (.read .prefetch r i) =>
      let s' := s.setAccess none
      (if i = .dropped then s' else s'.prefetchDone r i).settle
    | _ => s

/-- POSTED_WRITE_COMPLETION (R163, R164): the posted write is gone, and a stretched TABLE_DATA write is
posted in its place. With no posted write in progress there is no such completion (log entry 4). -/
def execPostedWriteCompletion (s : State) : Host.Outcome State Fault Refusal :=
  s.event fun s =>
    match s.store.access with
    | some (.write .posted _ _) =>
      match s.host.stretch with
      | some (.write v) => ((s.setAccess none).postWrite v).settle
      | _ => ((s.setAccess none).setHost { s.host with posted := none }).settle
    | _ => s

/-! ## Register accesses -/

/-- A write of TABLE_POINTER (R160): bits 12–0; dropped in START_UP (R167). -/
def State.writeTablePointer (s : State) (v : Data) : State :=
  match s.store.device with
  | .startUp => s
  | .running => (s.movePointer (v.extractLsb' 0 13)).settle

/-- TABLE_POINTER_WRITE (R160). -/
def execTablePointerWrite (v : Data) (s : State) : Host.Outcome State Fault Refusal :=
  s.whenBusFree (·.writeTablePointer v)

/-- A TABLE_DATA read in RUNNING (R162): a FULL holder gives its data at once; otherwise READY is
withheld, and an EMPTY holder starts a prefetch. -/
def State.readHolder (s : State) : State :=
  match s.host.holder with
  | .full d _ => (s.endTableRead d).settle
  | .pending => s.setHost { s.host with stretch := some .read }
  | .empty => (s.setHost { s.host with holder := .pending, stretch := some .read }).settle

/-- A read of TABLE_DATA; in START_UP it returns 0 at once (R167). -/
def State.readTableData (s : State) : State :=
  match s.store.device with
  | .startUp => s.returnData 0
  | .running => s.readHolder

/-- TABLE_DATA_READ (R162). -/
def execTableDataRead (s : State) : Host.Outcome State Fault Refusal :=
  s.whenBusFree State.readTableData

/-- A TABLE_DATA write in RUNNING (R163): posted at once, or, behind an earlier posted write, READY is
withheld and the write is posted at that write's completion. -/
def State.post (s : State) (v : Data) : State :=
  if s.host.posted.isSome then s.setHost { s.host with stretch := some (.write v) }
  else (s.postWrite v).settle

/-- A write of TABLE_DATA; dropped in START_UP (R167). -/
def State.writeTableData (s : State) (v : Data) : State :=
  match s.store.device with
  | .startUp => s
  | .running => s.post v

/-- TABLE_DATA_WRITE (R163). -/
def execTableDataWrite (v : Data) (s : State) : Host.Outcome State Fault Refusal :=
  s.whenBusFree (·.writeTableData v)

/-- A write of TABLE_PORT_STATUS (R165): with CLEAR, bit 7, at 1 REFUSED_COUNT becomes 0;
REFUSED_ADDRESS and WRITE_REFUSED stay. With CLEAR at 0 the write has no effect. -/
def State.clearPortStatus (s : State) (v : Data) : State :=
  if v.getLsbD 7 then s.setHost { s.host with refusedCount := 0 } else s

/-- TABLE_PORT_STATUS_CLEAR (R165). -/
def execTablePortStatusClear (v : Data) (s : State) : Host.Outcome State Fault Refusal :=
  s.whenBusFree (·.clearPortStatus v)

end Sys2Proof.Machine
end

