-- ==== Sys2Proof/Machine/Commands.lean ====
section
/-! DEFINITION. The thirteen commands and the unknown code (10.4): channel commands (3.4), job commands
(8.2, 8.5), error queue commands (6.4) and SOFT_RESET (10.7). -/

namespace Sys2Proof.Machine

/-! ## The command path (R171, R172) -/

/-- COMMAND_RESULT takes a result code and a job ID field (R172). -/
def State.answer (s : State) (c : ResultCode) (id : BitVec 8) : State :=
  s.setHost { s.host with result := c, resultJob := id }

/-- A write of COMMAND on a free bus: in START_UP every code is refused with STARTING; in RUNNING the
owner decides (R171). -/
def State.writeCommand (s : State) (f : State → State) : State :=
  match s.store.device with
  | .startUp => s.answer .starting 0
  | .running => f s

/-- The same as a host access. -/
def State.command (s : State) (f : State → State) : Host.Outcome State Fault Refusal :=
  s.whenBusFree (·.writeCommand f)

/-! ## Channel commands (3.4) -/

/-- ENABLE (R31). -/
def State.enableChan (s : State) (ch : Chan) : State :=
  let c := s.channels[ch]
  if c.state ≠ .disabled then s.answer .badState 0
  else if s.maint.fillOverlaps c.active.range then s.answer .rangeBusy 0
  else (s.setChan ch { c with state := .active, uncorrCount := 0 }).answer .ok 0

def execEnable (low : BitVec 8) (s : State) : Host.Outcome State Fault Refusal :=
  s.command (·.enableChan (commandChannel low))

/-- DISABLE (R32). -/
def State.disableChan (s : State) (ch : Chan) : State :=
  (s.setChan ch { s.channels[ch] with state := .disabled }).answer .ok 0

def execDisable (low : BitVec 8) (s : State) : Host.Outcome State Fault Refusal :=
  s.command (·.disableChan (commandChannel low))

/-- RESUME (R33). -/
def State.resumeChan (s : State) (ch : Chan) : State :=
  let c := s.channels[ch]
  if c.state = .suspended then (s.setChan ch { c with state := .active, uncorrCount := 0 }).answer .ok 0
  else s.answer .badState 0

def execResume (low : BitVec 8) (s : State) : Host.Outcome State Fault Refusal :=
  s.command (·.resumeChan (commandChannel low))

/-- ARM (R34). -/
def State.armChan (s : State) (ch : Chan) : State :=
  let c := s.channels[ch]
  if c.armed then s.answer .badState 0
  else if s.maint.fillOverlaps c.inactive.range then s.answer .rangeBusy 0
  else (s.setChan ch { c with armed := true }).answer .ok 0

def execArm (low : BitVec 8) (s : State) : Host.Outcome State Fault Refusal :=
  s.command (·.armChan (commandChannel low))

/-- DISARM (R35). -/
def State.disarmChan (s : State) (ch : Chan) : State :=
  let c := s.channels[ch]
  if c.armed then (s.setChan ch { c with armed := false }).answer .ok 0 else s.answer .badState 0

def execDisarm (low : BitVec 8) (s : State) : Host.Outcome State Fault Refusal :=
  s.command (·.disarmChan (commandChannel low))

/-! ## Job commands (8.2) -/

/-- A start of 0–8191 (Table 8-2). -/
def startValid (a : Data) : Bool := decide (a.toNat ≤ 8191)

/-- A count of 1–8192 with start + count at most 8192 (R123). -/
def spanValid (a b : Data) : Bool :=
  startValid a && decide (1 ≤ b.toNat ∧ a.toNat + b.toNat ≤ 8192)

/-- The job is accepted: ticket, ID, own copy of its arguments, tail of the queue; a pacing patrol
yields; the head job starts if it may; COMMAND_RESULT shows OK with the ID (R123, R127, R146). -/
def State.acceptJob (s : State) (kind : JobKind) (start : Addr) (count : Nat) (value : Data) : State :=
  (((s.setMaint (s.maint.accept kind start count value)).setPatrol
    s.patrol.yieldToJob).startJob.answer .ok s.maint.nextId).settle

/-- FILL (R123, R124). -/
def State.fillCommand (s : State) : State :=
  let a := s.maint.argA
  let b := s.maint.argB
  if s.maint.ticketsFree = 0 then s.answer .noTicket 0
  else if !spanValid a b then s.answer .badArgument 0
  else if s.rangeProtected ⟨a.toNat, a.toNat + b.toNat - 1⟩ then s.answer .rangeBusy 0
  else s.acceptJob .fill (a.extractLsb' 0 13) b.toNat s.maint.argC

def execFill (_low : BitVec 8) (s : State) : Host.Outcome State Fault Refusal :=
  s.command State.fillCommand

/-- VERIFY (R123). -/
def State.verifyCommand (s : State) : State :=
  let a := s.maint.argA
  let b := s.maint.argB
  if s.maint.ticketsFree = 0 then s.answer .noTicket 0
  else if !spanValid a b then s.answer .badArgument 0
  else s.acceptJob .verify (a.extractLsb' 0 13) b.toNat 0

def execVerify (_low : BitVec 8) (s : State) : Host.Outcome State Fault Refusal :=
  s.command State.verifyCommand

/-- RETIRE (R123, R130). -/
def State.retireCommand (s : State) : State :=
  let a := s.maint.argA
  if s.maint.ticketsFree = 0 then s.answer .noTicket 0
  else if !startValid a then s.answer .badArgument 0
  else s.acceptJob .retire (a.extractLsb' 0 13) 1 0

def execRetire (_low : BitVec 8) (s : State) : Host.Outcome State Fault Refusal :=
  s.command State.retireCommand

/-! ## ABORT_JOBS (8.5) -/

/-- What ABORT_JOBS does to the running job: a FILL or VERIFY with its access granted is marked
stopping; one whose claim waits stops at once, and its record comes first; a RETIRE goes on (R136). -/
def State.abortRunning (s : State) : Option RunningJob × List Completion :=
  match s.maint.run with
  | none => (none, [])
  | some j =>
    match j.job.kind with
    | .retire => (some j, [])
    | _ =>
      if s.maintGranted then (some { j with stopping := true }, [])
      else (none, [j.completion .aborted none])

/-- ABORT_JOBS (R136): the queued jobs' records follow; a withdrawn claim returns the maintenance wait
count to 0 (R13); a YIELDING patrol goes on if engine busy clears (R146). -/
def State.abortCommand (s : State) : State :=
  let r := s.abortRunning
  let s1 := if s.maint.run.isSome ∧ r.1.isNone then s.withdrawMaint else s
  ((s1.setMaint { s.maint with
    queue := []
    run := r.1
    completions := s.maint.completions ++ r.2 ++ s.maint.queue.map Job.abortedRecord
    }).leaveYielding.answer .ok 0).settle

def execAbortJobs (_low : BitVec 8) (s : State) : Host.Outcome State Fault Refusal :=
  s.command State.abortCommand

/-! ## The queues' commands -/

/-- POP_ERROR (R101). -/
def State.popErrorCommand (s : State) : State :=
  match s.errors.records with
  | _ :: rest => (s.setErrors { s.errors with records := rest }).answer .ok 0
  | [] => s.answer .empty 0

def execPopError (_low : BitVec 8) (s : State) : Host.Outcome State Fault Refusal :=
  s.command State.popErrorCommand

/-- POP_COMPLETION (R134): the record's ticket becomes free (R121). -/
def State.popCompletionCommand (s : State) : State :=
  match s.maint.completions with
  | r :: rest =>
    (s.setMaint { s.maint with
      completions := rest, ticketsFree := s.maint.ticketsFree + 1 }).answer .ok r.id
  | [] => s.answer .empty 0

def execPopCompletion (_low : BitVec 8) (s : State) : Host.Outcome State Fault Refusal :=
  s.command State.popCompletionCommand

/-- CLEAR_LOSS (R102). -/
def State.clearLossCommand (s : State) : State :=
  (s.setErrors { s.errors with loss := 0 }).answer .ok 0

def execClearLoss (_low : BitVec 8) (s : State) : Host.Outcome State Fault Refusal :=
  s.command State.clearLossCommand

/-! ## SOFT_RESET (10.7) -/

/-- A channel at a soft reset (R46). -/
def Context.afterSoftReset (c : Context) : Context :=
  { c with state := .disabled, armed := false, uncorrCount := 0 }

/-- The maintenance engine at a soft reset (R139). -/
def Maint.afterSoftReset (m : Maint) : Maint :=
  { m with ticketsFree := 4, queue := [], run := none, completions := [], nextId := 0 }

/-- The patrol at a soft reset (R155). -/
def Patrol.afterSoftReset (p : Patrol) : Patrol :=
  { p with enable := false, pointer := 0, passes := 0, phase := .off, timer := none, step := none }

/-- The host port at a soft reset: the posted write is kept, and COMMAND_RESULT is the soft reset's own
(R172, R176, R177). -/
def HostPort.afterSoftReset (h : HostPort) : HostPort :=
  { h with
    flags := Flags.clear, intEnable := 0, pointer := 0, holder := .empty, refusedCount := 0
    refusedAddress := 0, outcome := .none, result := .ok, resultJob := 0 }

/-- The soft reset of every block, as one event (R21, R46, R66, R86, R104, R119, R139, R155, R176,
R177). -/
def State.softReset (s : State) : State :=
  { s with
    store := { s.store with
      access := s.store.access.map Access.afterSoftReset
      hostWait := 0, maintWait := 0, mark := none }
    channels := s.channels.map Context.afterSoftReset
    link := { s.link with queue := [], frame := 0, stall := none }
    engine := s.dropEngine
    errors := { records := [], loss := 0 }
    sparing := { s.sparing with retire := none }
    maint := s.maint.afterSoftReset
    patrol := s.patrol.afterSoftReset
    host := s.host.afterSoftReset }

/-- SOFT_RESET (R21, R66): the reset, and then the arbiter's grant. An acceptance that comes together with
it, the soft reset first, takes no word and is no command (R65, R66, log entry 23). -/
def execSoftReset (_low : BitVec 8) (s : State) : Host.Outcome State Fault Refusal :=
  s.command (·.softReset.settle)

/-! ## The word of COMMAND (R171, R178) -/

/-- What the owner of a command does with it in RUNNING (Table 10-6). -/
def State.runCommand (s : State) (low : BitVec 8) : HostCommand → State
  | .enable => s.enableChan (commandChannel low)
  | .disable => s.disableChan (commandChannel low)
  | .resume => s.resumeChan (commandChannel low)
  | .arm => s.armChan (commandChannel low)
  | .disarm => s.disarmChan (commandChannel low)
  | .fill => s.fillCommand
  | .verify => s.verifyCommand
  | .retire => s.retireCommand
  | .abortJobs => s.abortCommand
  | .popError => s.popErrorCommand
  | .popCompletion => s.popCompletionCommand
  | .clearLoss => s.clearLossCommand
  | .softReset => s.softReset.settle

/-- A word of COMMAND in RUNNING: a known code is handed to its command's owner, any other is answered
UNKNOWN (R171). -/
def State.takeCommandWord (s : State) (w : Data) : State :=
  match commandOfCode (commandCode w) with
  | some h => s.runCommand (commandLow w) h
  | none => s.answer .unknown 0

/-- UNKNOWN_COMMAND (R171): a write of COMMAND by its whole word, which for this row carries a code that
is none of the thirteen and is refused with UNKNOWN. -/
def execUnknownCommand (word : Data) (s : State) : Host.Outcome State Fault Refusal :=
  s.command (·.takeCommandWord word)

end Sys2Proof.Machine
end

