-- ==== Sys2Proof/Machine/Timers.lean ====
section
/-! DEFINITION. The part's two timers, which count the same microsecond ticks (1.5.3): the stall timer
(4.6) and the patrol interval timer (9.3), and one tick of both. -/

namespace Sys2Proof.Machine

/-- The stall timer's elapsed time after `n` more ticks, stopping at 65535 (R61). -/
def Link.passTicks (l : Link) (n : Nat) : Link :=
  { l with stall := l.stall.map (fun t => { t with elapsed := min 65535 (t.elapsed + n) }) }

/-- The interval timer's elapsed time after `n` more ticks; it does not pass the interval, where the
timer expires (R144, log entry 6). -/
def Patrol.passTicks (p : Patrol) (n : Nat) : Patrol :=
  { p with timer := p.timer.map (fun t => max t (min p.interval.toNat (t + n))) }

/-- The stall timer expires for the current head: LINK_STALL is set (R61). -/
def State.expireStall (s : State) : State :=
  (s.setLink { s.link with stall := s.link.stall.map (fun t => { t with expired := true }) }).raiseLinkStall

/-- The timer has reached LINK_TIMEOUT and has not expired for this head (R61, R62). -/
def Link.stallDue (l : Link) : Bool :=
  match l.stall with
  | some t => !t.expired && l.timeout != 0 && decide (l.timeout.toNat ≤ t.elapsed)
  | none => false

/-- The ticks that the running stall timer still has to count to LINK_TIMEOUT; none while it cannot
expire (R61). -/
def Link.stallTicksLeft (l : Link) : Option Nat :=
  match l.stall with
  | some t => if t.expired || l.timeout == 0 then none else some (l.timeout.toNat - t.elapsed)
  | none => none

/-- The interval timer has reached PATROL_INTERVAL while the patrol is PACING (R144). -/
def Patrol.due (p : Patrol) : Bool :=
  match p.phase, p.timer with
  | .pacing, some t => decide (p.interval.toNat ≤ t)
  | _, _ => false

/-- A stall timer that has become due expires (R61, R62). -/
def State.checkStall (s : State) : State := if s.link.stallDue then s.expireStall else s

/-- An interval timer that has become due expires, and a step starts (R144, R145); the arbiter's grant
ends the event. -/
def State.checkPatrol (s : State) : State :=
  (if s.patrol.due then s.setPatrol s.patrol.startStep else s).settle

/-- `n` ticks pass for both running timers (R61, R144). -/
def State.passTicks (s : State) (n : Nat) : State :=
  (s.setLink (s.link.passTicks n)).setPatrol (s.patrol.passTicks n)

/-- One microsecond tick (log entry 6): both running timers count it, and one that reaches its setting
expires (R61, R144). A machine with both timers stopped idles. An owed grant comes first, as at every
event. -/
def State.tick (s : State) : State := (s.grantOwed.passTicks 1).checkStall.checkPatrol

end Sys2Proof.Machine
end

