-- ==== Sys2Proof/Machine/HostRegs.lean ====
section
/-! DEFINITION. The host's writes of the interrupt, window, timebase, patrol, link and job argument
registers, its accesses of WIN_DATA (10.3, 10.5, 10.6, 9.1, 4.3), and a write of any register by its
select (10.1). -/

namespace Sys2Proof.Machine

/-! ## Interrupts -/

/-- A write of INT_STATUS: each sticky flag written as 1 is cleared (R174). -/
def State.writeIntStatus (s : State) (v : Data) : State := s.setFlags (s.host.flags.clearBits v)

/-- INT_STATUS_WRITE (R174). -/
def execIntStatusWrite (v : Data) (s : State) : Host.Outcome State Fault Refusal :=
  s.whenBusFree (·.writeIntStatus v)

/-- A write of INT_ENABLE: bits 10–0 (R175). -/
def State.writeIntEnable (s : State) (v : Data) : State :=
  s.setHost { s.host with intEnable := v.extractLsb' 0 11 }

/-- INT_ENABLE_WRITE (R175). -/
def execIntEnableWrite (v : Data) (s : State) : Host.Outcome State Fault Refusal :=
  s.whenBusFree (·.writeIntEnable v)

/-! ## Windows -/

/-- A write of WIN_ADDR: the window, and the index modulo the window's size (R169). -/
def State.writeWinAddr (s : State) (v : Data) : State :=
  let w := decodeWindow v
  s.setHost { s.host with
    window := w, index := BitVec.ofNat 8 ((v.extractLsb' 0 8).toNat % w.size) }

/-- WIN_ADDR_WRITE (R169). -/
def execWinAddrWrite (v : Data) (s : State) : Host.Outcome State Fault Refusal :=
  s.whenBusFree (·.writeWinAddr v)

/-- The window index after any WIN_DATA access (R170). -/
def State.advanceIndex (s : State) : State :=
  s.setHost { s.host with index := nextIndex s.host.window s.host.index }

/-- WIN_DATA_READ (R170): the selected field is returned and the index advances. -/
def execWinDataRead (s : State) : Host.Outcome State Fault Refusal :=
  s.whenBusFree fun s => (s.returnData s.winData).advanceIndex

/-- A CONTEXT window write: WIN_STATUS takes the outcome, and the record changes if it is OK (R26). -/
def State.writeContext (s : State) (v : Data) : State :=
  let ch := indexChannel s.host.index
  let r := s.channels[ch].writeField (indexField s.host.index) v
  (s.setChan ch r.2).setHost { s.host with winStatus := r.1 }

/-- A write of WIN_DATA (R170): the window's owner decides; the three other windows answer READ_ONLY
(R100, R110, R133). The index advances. -/
def State.writeWinData (s : State) (v : Data) : State :=
  (match s.host.window with
  | .context => s.writeContext v
  | _ => s.setHost { s.host with winStatus := .readOnly }).advanceIndex

/-- WIN_DATA_WRITE (R170). -/
def execWinDataWrite (v : Data) (s : State) : Host.Outcome State Fault Refusal :=
  s.whenBusFree (·.writeWinData v)

/-! ## Timebase -/

/-- A write of TIMEBASE: bits 6–0, refused outside 8–100 (R173). -/
def State.writeTimebase (s : State) (v : Data) : State :=
  let t := v.extractLsb' 0 7
  if 8 ≤ t.toNat ∧ t.toNat ≤ 100 then s.setHost { s.host with timebase := t } else s

/-- TIMEBASE_WRITE (R173). -/
def execTimebaseWrite (v : Data) (s : State) : Host.Outcome State Fault Refusal :=
  s.whenBusFree (·.writeTimebase v)

/-! ## Patrol -/

/-- The fields of a PATROL_CTRL write: ENABLE, RETIRE_LIMIT, and MAINT_SHARE if it lies in 1–16 (R14,
R141). -/
def Patrol.writeCtrl (p : Patrol) (v : Data) : Patrol :=
  let share := v.extractLsb' 8 5
  { p with
    enable := v.getLsbD 0
    retireLimit := v.extractLsb' 4 4
    share := if 1 ≤ share.toNat ∧ share.toNat ≤ 16 then share else p.share }

/-- What the ENABLE just written does to the patrol in RUNNING: from OFF it enters PACING, YIELDING or a
step; cleared in PACING or YIELDING it enters OFF; a step in progress runs to its end (R144, R154). -/
def State.actOnEnable (s : State) : State :=
  match s.store.device, s.patrol.phase with
  | .startUp, _ => s
  | .running, .off => s.resumePatrol
  | .running, .pacing => if s.patrol.enable then s else s.resumePatrol
  | .running, .yielding => if s.patrol.enable then s else s.resumePatrol
  | .running, _ => s

/-- A write of PATROL_CTRL (R14, R141, R154). -/
def State.writePatrolCtrl (s : State) (v : Data) : State :=
  (s.setPatrol (s.patrol.writeCtrl v)).actOnEnable.settle

/-- PATROL_CTRL_WRITE (R14, R141, R154). -/
def execPatrolCtrlWrite (v : Data) (s : State) : Host.Outcome State Fault Refusal :=
  s.whenBusFree (·.writePatrolCtrl v)

/-- A write of PATROL_INTERVAL: while PACING the new value acts against the elapsed time (R145). -/
def State.writePatrolInterval (s : State) (v : Data) : State :=
  (s.setPatrol { s.patrol with interval := v }).checkPatrol

/-- PATROL_INTERVAL_WRITE (R145). -/
def execPatrolIntervalWrite (v : Data) (s : State) : Host.Outcome State Fault Refusal :=
  s.whenBusFree (·.writePatrolInterval v)

/-! ## Link -/

/-- A write of LINK_CTRL: bit 0, the link enable (R50). -/
def State.writeLinkCtrl (s : State) (v : Data) : State :=
  s.setLink { s.link with enable := v.getLsbD 0 }

/-- LINK_CTRL_WRITE (R50). -/
def execLinkCtrlWrite (v : Data) (s : State) : Host.Outcome State Fault Refusal :=
  s.whenBusFree (·.writeLinkCtrl v)

/-- A write of LINK_TIMEOUT: the new value acts against the elapsed time of the current offer (R62). -/
def State.writeLinkTimeout (s : State) (v : Data) : State :=
  (s.setLink { s.link with timeout := v }).checkStall

/-- LINK_TIMEOUT_WRITE (R62). -/
def execLinkTimeoutWrite (v : Data) (s : State) : Host.Outcome State Fault Refusal :=
  s.whenBusFree (·.writeLinkTimeout v)

/-! ## The register window -/

/-- A write of the register selected by HA[4:0] (R156, R178, Table 11-1): each writable register takes
its write; a write of a read-only register or of an empty offset is ignored. -/
def State.writeRegister (s : State) (sel : BitVec 5) (v : Data) : State :=
  match sel.toNat with
  | 0x02 => s.writeIntStatus v
  | 0x03 => s.writeIntEnable v
  | 0x04 => s.writeCommand (·.takeCommandWord v)
  | 0x06 => s.writeTimebase v
  | 0x07 => s.writePatrolCtrl v
  | 0x08 => s.writePatrolInterval v
  | 0x0B => s.writeLinkCtrl v
  | 0x0C => s.writeLinkTimeout v
  | 0x0E => s.writeTablePointer v
  | 0x0F => s.writeTableData v
  | 0x10 => s.clearPortStatus v
  | 0x12 => s.writeWinAddr v
  | 0x13 => s.writeWinData v
  | 0x15 => s.setMaint { s.maint with argA := v }
  | 0x16 => s.setMaint { s.maint with argB := v }
  | 0x17 => s.setMaint { s.maint with argC := v }
  | _ => s

/-- REGISTER_WRITE (R156): a write by its select, which for this row names JOB_ARG_A, JOB_ARG_B or
JOB_ARG_C, a read-only register or an empty offset (log entry 17). -/
def execRegisterWrite (sel : BitVec 5) (v : Data) (s : State) : Host.Outcome State Fault Refusal :=
  s.whenBusFree (·.writeRegister sel v)

end Sys2Proof.Machine
end

