-- ==== Sys2Proof/Machine/Lookups.lean ====
section
/-! DEFINITION. The completions of the lookup engine's reads (chapter 5). -/

namespace Sys2Proof.Machine

/-- A lookup read of the current slot completes: the detection is filed, and the lookup completes, or
a LINEAR slot goes on to its second read (R73, R74, R83). -/
def State.lookupRead (s : State) (r : ReadResult) (ch : Chan) (snap : Snapshot) : State :=
  match s.engine with
  | .firstRead p =>
    match snap.bank.mode with
    | .nearest => s.completeLookup ch snap (p.note r.outcome) r.data.toInt
    | .linear => s.setEngine (.secondRead (p.note r.outcome) ⟨r.data, r.outcome⟩)
  | .secondRead p first =>
    s.completeLookup ch snap (p.note r.outcome)
      (interpolate snap.bank first.data r.data p.fraction)
  | _ => s

/-- The lookup engine is evaluating a slot (R68). -/
def Engine.evaluating : Engine → Bool
  | .firstRead _ => true
  | .secondRead _ _ => true
  | _ => false

/-- The grant at the end of a lookup read's completion: a second read just presented may come together
with a reset that withdraws it (R87). -/
def State.settleLookup (s : State) : State :=
  match s.engine with
  | .secondRead _ _ => s.settleTogether .lookup
  | _ => s.settle

/-- LOOKUP_READ_COMPLETION (R73, R74, R80, R87): with no read of a current slot in progress there is no
such completion (log entry 4). -/
def execLookupReadCompletion (s : State) : Host.Outcome State Fault Refusal :=
  s.event fun s =>
    match s.store.access, readingSlot s.link.queue with
    | some (.read .lookup r _), some (ch, snap) =>
      if s.engine.evaluating then
        (((s.setAccess none).fileRead r .lookup (some ch)).lookupRead r ch snap).settleLookup
      else s
    | _, _ => s

/-- The drained read of a slot that a link reset discarded: its detection is filed, and the slot's
report is made if a completed read of it was faulty (R43, R64, R86). -/
def State.drainStale (s : State) (r : ReadResult) (ch : Chan) (faulty : Bool) : State :=
  let s' := s.fileRead r .lookup (some ch)
  if faulty || r.outcome.faulty then s'.reportFaulty ch else s'

/-- DRAINED_READ_COMPLETION (R64, R66, R86): after a soft reset nothing is filed or reported; then the
engine takes the WAITING slot nearest the head. With no read draining there is no such completion (log
entry 4). -/
def execDrainedReadCompletion (s : State) : Host.Outcome State Fault Refusal :=
  s.event fun s =>
    match s.store.access, s.engine with
    | some (.read .lookup r i), .draining ch _ faulty =>
      let s' := (s.setAccess none).setEngine .idle
      ((if i = .dropped then s' else s'.drainStale r ch faulty).takeSlot).settle
    | _, _ => s

end Sys2Proof.Machine
end

