-- ==== Sys2Proof/Machine/Maintenance.lean ====
section
/-! DEFINITION. The completions of the maintenance engine's accesses: FILL and VERIFY words (8.3), the
retire operation (7.4) and the patrol step (9.5). A completion whose operation a soft reset has ended
only frees the store (R21, R119, R139, R155). -/

namespace Sys2Proof.Machine

/-! ## FILL and VERIFY words -/

/-- A running FILL or VERIFY after one word, with the grant that ends the event: the job ends when it is
stopping or has done its last word (R131, R136), and otherwise asks for the next (R128, R129), which may
come together with the ABORT_JOBS that withdraws it (R137). -/
def State.afterWord (s : State) (j : RunningJob) : State :=
  if j.stopping then (s.endJob j .aborted none).settle
  else if j.wordsDone = j.job.count then (s.endJob j .done none).settle
  else (s.setMaint { s.maint with run := some j }).settleTogether .maint

/-- FILL_WORD_COMPLETION (R128): WORDS_DONE increments. With no FILL write in progress there is no such
completion (log entry 4). -/
def execFillWordCompletion (s : State) : Host.Outcome State Fault Refusal :=
  s.event fun s =>
    match s.store.access, s.maint.run with
    | some (.write .fill _ .wanted), some j =>
      (s.setAccess none).afterWord { j with wordsDone := j.wordsDone + 1 }
    | some (.write .fill _ _), _ => (s.setAccess none).settle
    | _, _ => s

/-- The counters of a VERIFY job after one read (R129). -/
def RunningJob.countRead (j : RunningJob) (o : ReadOutcome) : RunningJob :=
  { j with
    wordsDone := j.wordsDone + 1
    correctedFound := j.correctedFound + o.correctedCount
    uncorrFound := j.uncorrFound + o.uncorrCount }

/-- VERIFY_READ_COMPLETION (R129): the detection is filed with source JOB and the counters updated. With
no VERIFY read in progress there is no such completion (log entry 4). -/
def execVerifyReadCompletion (s : State) : Host.Outcome State Fault Refusal :=
  s.event fun s =>
    match s.store.access, s.maint.run with
    | some (.read .verify r .wanted), some j =>
      ((s.setAccess none).fileRead r .job none).afterWord (j.countRead r.outcome)
    | some (.read .verify _ _), _ => (s.setAccess none).settle
    | _, _ => s

/-! ## The retire operation -/

/-- The source a retire operation's detection is filed with (R112). -/
def RetireSource.source : RetireSource → Source
  | .job => .job
  | .patrol => .patrol

/-- The operation ends NO_SPARE at its read's completion: SPARES_EXHAUSTED is set, and the invoker is
handed the result (R112, R118). -/
def State.retireNoSpare (s : State) (op : RetireOp) (r : ReadResult) : State :=
  match op.source with
  | .job => s.raiseSparesExhausted.endRetireJob r.outcome .noSpare none
  | .patrol => s.raiseSparesExhausted.patrolNoSpare r

/-- The retire operation after its read: the copy and poison mark are recorded, and the lowest FREE
slot is allocated, or the operation ends NO_SPARE (R112). -/
def State.retireAllocate (s : State) (op : RetireOp) (r : ReadResult) : State :=
  match s.sparing.lowestFree with
  | some k =>
    s.setSparing { s.sparing with
      retire := some { op with
        phase := .write
          { outcome := r.outcome, copy := r.data, poison := r.outcome.faulty, slot := k } } }
  | none => s.retireNoSpare op r

/-- RETIRE_READ_COMPLETION (R112): the detection is filed and the operation allocates. With no retire
read in progress there is no such completion (log entry 4). -/
def execRetireReadCompletion (s : State) : Host.Outcome State Fault Refusal :=
  s.event fun s =>
    match s.store.access, s.sparing.retire with
    | some (.read .retire r .wanted), some op =>
      (((s.setAccess none).fileRead r op.source.source none).retireAllocate op r).settle
    | some (.read .retire _ _), _ => (s.setAccess none).settle
    | _, _ => s

/-- The map entry for `a` after a commit: a valid entry for `a` changes its SLOT, and otherwise the
first invalid entry becomes valid (R107; log entry 10 for which invalid entry). -/
def commitEntry (m : Vector (Option MapEntry) 16) (a : Addr) (k : SlotNo) :
    Vector (Option MapEntry) 16 :=
  match (List.finRange 16).find? (fun i => (m[i].map MapEntry.address) == some a) with
  | some i => m.set i (some ⟨a, k⟩)
  | none =>
    match (List.finRange 16).find? (fun i => m[i].isNone) with
    | some i => m.set i (some ⟨a, k⟩)
    | none => m

/-- The map commit: the old slot, if there is one, becomes DEFECTIVE, the entry names the allocated
slot, and that slot becomes MAPPED with the operation's poison mark (R114). -/
def Sparing.commit (sp : Sparing) (a : Addr) (c : RetireCopy) : Sparing :=
  let sp1 :=
    match mapLookup sp.map.toList a with
    | some old => sp.setSlot old ⟨.defective, false⟩
    | none => sp
  { sp1.setSlot c.slot ⟨.mapped, c.poison⟩ with map := commitEntry sp.map a c.slot }

/-- The state after the map commit; SPARES_EXHAUSTED is set if no slot is FREE (R109, R114). -/
def State.mapCommit (s : State) (a : Addr) (c : RetireCopy) : State :=
  let s' := s.setSparing (s.sparing.commit a c)
  if s'.sparing.freeCount = 0 then s'.raiseSparesExhausted else s'

/-- The operation ends DONE: the RETIRE job ends, or the patrol step ends (R118, R130, R153). -/
def State.retireDone (s : State) (op : RetireOp) (c : RetireCopy) : State :=
  match op.source with
  | .job => s.endRetireJob c.outcome .done (some c.slot)
  | .patrol => s.clearRetire.endStep

/-- SPARE_WRITE_COMPLETION (R114): the map commit takes place and the operation ends DONE. After a soft
reset no commit follows (R119). With no spare write in progress there is no such completion (log entry
4). -/
def execSpareWriteCompletion (s : State) : Host.Outcome State Fault Refusal :=
  s.event fun s =>
    match s.store.access, s.sparing.retire with
    | some (.write .spare _ .wanted), some op =>
      match op.phase with
      | .write c => (((s.setAccess none).mapCommit op.address c).retireDone op c).settle
      | .read => (s.setAccess none).settle
    | some (.write .spare _ _), _ => (s.setAccess none).settle
    | _, _ => s

/-! ## The patrol step -/

/-- PATROL_INTERVAL_EXPIRY (R144): the ticks left to the interval timer pass, which the stall timer
counts too and expires if it reaches LINK_TIMEOUT (R61, log entry 6), and a step starts. A patrol that is
not PACING has no expiry (log entry 4). Behind a write of a larger PATROL_INTERVAL the expiry is the one at
the new value, later on (R145, log entry 23). -/
def execPatrolIntervalExpiry (s : State) : Host.Outcome State Fault Refusal :=
  s.event fun s =>
    match s.patrol.phase, s.patrol.timer with
    | .pacing, some t =>
      ((s.setLink (s.link.passTicks (s.patrol.interval.toNat - t))).checkStall.setPatrol
        s.patrol.startStep).settle
    | _, _ => s

/-- Whether a CORRECTED read whose filing handed back `count` retires its word (R148). -/
def Patrol.retires (p : Patrol) (count : Option (BitVec 8)) : Bool :=
  match count with
  | some n => p.retireLimit != 0 && decide (p.retireLimit.toNat ≤ n.toNat)
  | none => false

/-- The step acts on the outcome of its read (R148): it ends, starts a retire operation on its address
(R151), or asks for its write-back (R149). -/
def State.patrolAct (s : State) (st : PatrolStep) (r : ReadResult) (count : Option (BitVec 8)) :
    State :=
  if r.outcome = .corrected then
    let retires := s.patrol.retires count
    let s' := s.setPatrol { s.patrol with
      phase := .repairing
      step := some { st with outcome := some r.outcome, data := r.data, retiring := retires } }
    if retires then
      s'.setSparing { s'.sparing with
        retire := some { address := st.address, source := .patrol, phase := .read } }
    else s'
  else s.endStep

/-- PATROL_READ_COMPLETION (R147, R148): the detection is filed with source PATROL and the step acts.
With no patrol read in progress there is no such completion (log entry 4). -/
def execPatrolReadCompletion (s : State) : Host.Outcome State Fault Refusal :=
  s.event fun s =>
    match s.store.access, s.patrol.step with
    | some (.read .patrol r .wanted), some st =>
      let s' := s.setAccess none
      ((s'.fileRead r .patrol none).patrolAct st r (s'.filedCount r .patrol none)).settle
    | some (.read .patrol _ _), _ => (s.setAccess none).settle
    | _, _ => s

/-- WRITE_BACK_COMPLETION (R149): the step ends. With no write-back in progress there is no such
completion (log entry 4). -/
def execWriteBackCompletion (s : State) : Host.Outcome State Fault Refusal :=
  s.event fun s =>
    match s.store.access, s.patrol.step with
    | some (.write .writeBack _ .wanted), some _ => (s.setAccess none).endStep.settle
    | some (.write .writeBack _ _), _ => (s.setAccess none).settle
    | _, _ => s

end Sys2Proof.Machine
end

