-- ==== Sys2Proof/Machine/Reset.lean ====
section
/-! DEFINITION. Device reset, the start-up fill and stored-bit disturbance (2.2, 2.7): the first four
rows of the table. -/

namespace Sys2Proof.Machine

/-- The key that a write in progress leaves undetermined when a device reset abandons it: the word of
the store access in progress, or of the start-up fill's write (R18, R20). -/
def State.abandonedKey (s : State) : Option Nat :=
  match s.store.fill, s.store.access with
  | some k, _ => some k
  | none, some (.write _ key _) => key
  | none, _ => none

/-- The stored words after a device reset with RESET# asserted: kept, but for a word whose write was
abandoned, which holds a free value until the fill rewrites it (R18). MODEL'S CHOICE for a power-on with
RESET# asserted, which this cause covers too: the spec gives the words no contents then, and the model
keeps the bits from before (log entry 2). -/
def State.memAfterReset (s : State) : List (Nat × StoredWord) :=
  match s.abandonedKey with
  | some k => s.abandonWord k
  | none => s.store.mem

/-- What the host read when a device reset ended a stretched access: 0 for a read (R157). -/
def State.outputsAfterReset (s : State) : Outputs :=
  match s.host.stretch with
  | some .read => { s.outputs with readData := 0 }
  | _ => s.outputs

/-- Every block at its device reset values (R18, R22, R67, R104, R120, R140, R155, R158). LINK_RST is
the requester's signal and keeps its level (log entry 9). -/
def State.deviceReset (s : State) (mem : List (Nat × StoredWord)) (fill : Option Nat)
    (asserted : Bool) : State :=
  { State.reset with
    store := { State.reset.store with mem := mem, fill := fill, resetAsserted := asserted }
    link := { State.reset.link with linkRst := s.link.linkRst }
    outputs := s.outputsAfterReset
    freeIndex := s.freeIndex + 1
    pending := s.pending }

/-- DEVICE_RESET (R18, R19, R20). With RESET# asserted the fill waits for its release. At a power-on
with RESET# already released the fill begins at once, and the words are those of a power-on (log
entry 2). -/
def execDeviceReset (cause : ResetCause) (s : State) : Host.Outcome State Fault Refusal :=
  s.event fun s =>
    match cause with
    | .pinAsserted => s.deviceReset s.memAfterReset none true
    | .powerOn => s.deviceReset State.reset.store.mem (some 0) false

/-- The spare map empty, every slot FREE and every poison flag clear (R19). -/
def Sparing.cleared (sp : Sparing) : Sparing :=
  { sp with slots := State.reset.sparing.slots, map := State.reset.sparing.map }

/-- RESET_RELEASE (R19): the fill clears the map and begins at main address 0. A release while RESET#
is not asserted is no event (log entry 4). -/
def execResetRelease (s : State) : Host.Outcome State Fault Refusal :=
  s.event fun s =>
    if s.store.resetAsserted then
      (s.setStore { s.store with resetAsserted := false, fill := some 0 }).setSparing
        s.sparing.cleared
    else s

/-- The device enters RUNNING: START_DONE is set, PREFETCH_OUTCOME becomes NONE, and a patrol with
ENABLE on paces or starts a step (R19, R154, R167). -/
def State.enterRunning (s : State) : State :=
  let s' := s.setStore { s.store with device := .running, fill := none }
  ((s'.setHost { s'.host with outcome := .none }).raiseStartDone).resumePatrol

/-- START_UP_FILL_WRITE_COMPLETION (R19): data 0 with check field 0 is stored in the word whose turn it
is; after spare slot 15 the fill completes. A patrol step that the completion starts has its claim
presented and shows CLAIMING (R147, R179: 0x3990); its grant follows before anything else happens (R11,
log entry 22). With no fill running there is no such completion (log entry 4). -/
def execStartUpFillWriteCompletion (s : State) : Host.Outcome State Fault Refusal :=
  s.event fun s =>
    match s.store.fill with
    | some k =>
      let s' := s.putWord k StoredWord.zero
      if k + 1 < wordCount then s'.setStore { s'.store with fill := some (k + 1) }
      else s'.enterRunning
    | none => s

/-- A stored word with the bits of the masks inverted (R7). -/
def disturbWord (w : StoredWord) (d : BitVec 16) (c : BitVec 6) : StoredWord :=
  ⟨w.data ^^^ d, w.check ^^^ c⟩

/-- STORED_BIT_DISTURBANCE (R7): stored bits change without a write, and nothing else does. -/
def execStoredBitDisturbance (place : Place) (d : BitVec 16) (c : BitVec 6) (s : State) :
    Host.Outcome State Fault Refusal :=
  s.event fun s => s.putWord place.key (disturbWord (s.word place) d c)

end Sys2Proof.Machine
end

