-- ==== Sys2Proof/Machine/SampleLink.lean ====
section
/-! DEFINITION. The sample link (chapter 4): acceptance, delivery, the stall timer and link reset. -/

namespace Sys2Proof.Machine

/-! ## Acceptance (4.4) -/

/-- The record of one channel at a frame mark: an armed channel commits (R37). -/
def Context.commit (c : Context) (frame : BitVec 16) : Context :=
  if c.armed then { c with activeBank := c.activeBank.other, armed := false, swapFrame := frame }
  else c

/-- The swap commit with the new frame number; SWAP_DONE is set if a channel committed (R37). -/
def State.swapCommit (s : State) (frame : BitVec 16) : State :=
  let s' := s.setChannels (s.channels.map (·.commit frame))
  if s.channels.toList.any (·.armed) then s'.raiseSwapDone else s'

/-- The fallback value of a SUSPENDED answer, by the channel's current POLICY (R57). -/
def Context.fallback (c : Context) : Data :=
  match c.policy with
  | .holdLast => c.lastGood
  | .substitute => c.substitute
  | .reject => 0

/-- A response decided at acceptance: CORRECTED and CLAMPED are 0 (Table 4-3). -/
def acceptanceResponse (d : Disposition) (result : Data) : SlotPhase :=
  .done { disposition := d, corrected := false, clamped := false, result := result }

/-- The state with a new slot for the word at the tail (R53); a DONE slot that joins an empty queue is
offered from its acceptance (R61). -/
def State.pushSlot (s : State) (word : BitVec 29) (phase : SlotPhase) : State :=
  s.setLink ({ s.link with
    queue := s.link.queue ++
      [{ kind := requestKind word, channel := requestChannel word, tag := requestTag word
         phase := phase }] } : Link).refreshOffer

/-- A frame mark: the counter advances, every armed channel commits, and the slot is a FRAME_ACK with
the new counter value (R56). -/
def State.acceptFrame (s : State) (word : BitVec 29) : State :=
  let n := s.link.frame + 1
  ((s.setLink { s.link with frame := n }).swapCommit n).pushSlot word (acceptanceResponse .frameAck n)

/-- A LOOKUP with good parity, by the channel's STATE (R57, R58). A WAITING slot is taken at once by
an IDLE engine (R69). -/
def State.acceptLookup (s : State) (word : BitVec 29) : State :=
  let c := s.channels[requestChannel word]
  match c.state with
  | .disabled => s.pushSlot word (acceptanceResponse .channelOff 0)
  | .suspended => s.pushSlot word (acceptanceResponse .suspended c.fallback)
  | .active => (s.pushSlot word (.waiting (requestSample word) c.snapshot)).takeSlot

/-- The handling of an accepted word, in the order of Table 4-5 (R53 to R58). -/
def State.acceptWord (s : State) (word : BitVec 29) : State :=
  if requestParity word then
    s.raiseLinkError.pushSlot word (acceptanceResponse .linkParity 0)
  else if requestKind word = 0 then s.acceptLookup word
  else if requestKind word = 1 then s.acceptFrame word
  else s.pushSlot word (acceptanceResponse .badKind 0)

/-- REQUEST_ACCEPTANCE (R49, R53): the word offered is taken while the link is open; while it is not,
RQ_TAKE is withheld, the word stays offered and the part does not change. DESIGN CHOICE (log entry 23):
behind a SOFT_RESET that leaves the link open the command is a later transfer and not one that came
together with the soft reset, so its word is taken, and a FRAME is counter 1 (R66). -/
def execRequestAcceptance (word : BitVec 29) (s : State) : Host.Outcome State Fault Refusal :=
  s.event fun s => if s.linkOpen then (s.acceptWord word).settle else s

/-! ## Delivery (R51) -/

/-- DELIVERY (R51, R60): the requester takes the head's response and the next DONE head is offered.
RS_TAKE while RS_OFFER is withheld transfers nothing. -/
def execDelivery (s : State) : Host.Outcome State Fault Refusal :=
  s.event fun s =>
    match s.offered with
    | some w =>
      (s.setLink ({ s.link with queue := s.link.queue.tail, stall := none } :
        Link).refreshOffer).setOutputs { s.outputs with delivered := w }
    | none => s

/-! ## The stall timer (4.6) -/

/-- STALL_TIMER_EXPIRY (R61): the ticks left to the stall timer pass, which a running interval timer
counts too and expires if it reaches PATROL_INTERVAL (R144, log entry 6), and the timer expires. A timer
that is stopped, off or has expired for this head does not expire (log entry 4). Behind a delivery the
expiry is the next head's, later on (R61, log entry 23). -/
def execStallTimerExpiry (s : State) : Host.Outcome State Fault Refusal :=
  s.event fun s =>
    match s.link.stallTicksLeft with
    | some n => (s.passTicks n).expireStall.checkPatrol
    | none => s

/-! ## Link reset (4.7) -/

/-- "Any faulty" of a slot that a link reset discards with no read granted: its report is due at the
discard (R86). -/
def Engine.faultyProgress : Engine → Bool
  | .firstRead p => p.anyFaulty
  | .secondRead p _ => p.anyFaulty
  | _ => false

/-- The report a link reset makes at the discard, for a slot whose first read completed faulty and
whose second had no grant (R43, R86). -/
def State.reportDiscard (s : State) : State :=
  match readingSlot s.link.queue with
  | some (ch, _) =>
    if s.engine.faultyProgress && !s.accessOf .lookup then s.reportFaulty ch else s
  | none => s

/-- A granted lookup read loses its slot at a link reset and still files its detection (R64). -/
def State.accessAfterLinkReset (s : State) : Option Access :=
  match s.engine with
  | .firstRead _ => if s.accessOf .lookup then s.store.access.map Access.discard else s.store.access
  | .secondRead _ _ =>
    if s.accessOf .lookup then s.store.access.map Access.discard else s.store.access
  | _ => s.store.access

/-- The queue emptied, the stall timer stopped, the engine's slot dropped (R63, R64). -/
def State.discardSlots (s : State) : State :=
  (((s.reportDiscard).setAccess s.accessAfterLinkReset).setEngine s.dropEngine).setLink
    { s.link with queue := [], stall := none }

/-- LINK_RST_ASSERT (R63, R64): every slot is discarded without a response and the link closes. -/
def execLinkRstAssert (s : State) : Host.Outcome State Fault Refusal :=
  s.event fun s =>
    let s' := s.discardSlots
    (s'.setLink { s'.link with linkRst := true }).settle

/-- LINK_RST_RELEASE (R63): the link reopens if the other conditions of R49 hold. -/
def execLinkRstRelease (s : State) : Host.Outcome State Fault Refusal :=
  s.event fun s => s.setLink { s.link with linkRst := false }

end Sys2Proof.Machine
end

