-- ==== Sys2Proof/Machine/Dispatch.lean ====
section
/-! DEFINITION. The effect of every command on everything but the queue: one arm per row of
spec/opcode_table.json. -/

namespace Sys2Proof.Machine

def exec (i : Instr) (s : State) : Host.Outcome State Fault Refusal :=
  match i with
  | .deviceReset cause => Sys2Proof.Machine.execDeviceReset cause s
  | .resetRelease => Sys2Proof.Machine.execResetRelease s
  | .startUpFillWriteCompletion => Sys2Proof.Machine.execStartUpFillWriteCompletion s
  | .storedBitDisturbance place d c => Sys2Proof.Machine.execStoredBitDisturbance place d c s
  | .requestAcceptance word => Sys2Proof.Machine.execRequestAcceptance word s
  | .delivery => Sys2Proof.Machine.execDelivery s
  | .stallTimerExpiry => Sys2Proof.Machine.execStallTimerExpiry s
  | .linkRstAssert => Sys2Proof.Machine.execLinkRstAssert s
  | .linkRstRelease => Sys2Proof.Machine.execLinkRstRelease s
  | .lookupReadCompletion => Sys2Proof.Machine.execLookupReadCompletion s
  | .drainedReadCompletion => Sys2Proof.Machine.execDrainedReadCompletion s
  | .prefetchCompletion => Sys2Proof.Machine.execPrefetchCompletion s
  | .postedWriteCompletion => Sys2Proof.Machine.execPostedWriteCompletion s
  | .fillWordCompletion => Sys2Proof.Machine.execFillWordCompletion s
  | .verifyReadCompletion => Sys2Proof.Machine.execVerifyReadCompletion s
  | .retireReadCompletion => Sys2Proof.Machine.execRetireReadCompletion s
  | .spareWriteCompletion => Sys2Proof.Machine.execSpareWriteCompletion s
  | .patrolIntervalExpiry => Sys2Proof.Machine.execPatrolIntervalExpiry s
  | .patrolReadCompletion => Sys2Proof.Machine.execPatrolReadCompletion s
  | .writeBackCompletion => Sys2Proof.Machine.execWriteBackCompletion s
  | .tablePointerWrite v => Sys2Proof.Machine.execTablePointerWrite v s
  | .tableDataRead => Sys2Proof.Machine.execTableDataRead s
  | .tableDataWrite v => Sys2Proof.Machine.execTableDataWrite v s
  | .tablePortStatusClear v => Sys2Proof.Machine.execTablePortStatusClear v s
  | .intStatusWrite v => Sys2Proof.Machine.execIntStatusWrite v s
  | .intEnableWrite v => Sys2Proof.Machine.execIntEnableWrite v s
  | .winAddrWrite v => Sys2Proof.Machine.execWinAddrWrite v s
  | .winDataRead => Sys2Proof.Machine.execWinDataRead s
  | .winDataWrite v => Sys2Proof.Machine.execWinDataWrite v s
  | .timebaseWrite v => Sys2Proof.Machine.execTimebaseWrite v s
  | .patrolCtrlWrite v => Sys2Proof.Machine.execPatrolCtrlWrite v s
  | .patrolIntervalWrite v => Sys2Proof.Machine.execPatrolIntervalWrite v s
  | .linkCtrlWrite v => Sys2Proof.Machine.execLinkCtrlWrite v s
  | .linkTimeoutWrite v => Sys2Proof.Machine.execLinkTimeoutWrite v s
  | .registerWrite sel v => Sys2Proof.Machine.execRegisterWrite sel v s
  | .enable low => Sys2Proof.Machine.execEnable low s
  | .disable low => Sys2Proof.Machine.execDisable low s
  | .resume low => Sys2Proof.Machine.execResume low s
  | .arm low => Sys2Proof.Machine.execArm low s
  | .disarm low => Sys2Proof.Machine.execDisarm low s
  | .fill low => Sys2Proof.Machine.execFill low s
  | .verify low => Sys2Proof.Machine.execVerify low s
  | .retire low => Sys2Proof.Machine.execRetire low s
  | .abortJobs low => Sys2Proof.Machine.execAbortJobs low s
  | .popError low => Sys2Proof.Machine.execPopError low s
  | .popCompletion low => Sys2Proof.Machine.execPopCompletion low s
  | .clearLoss low => Sys2Proof.Machine.execClearLoss low s
  | .softReset low => Sys2Proof.Machine.execSoftReset low s
  | .unknownCommand word => Sys2Proof.Machine.execUnknownCommand word s

end Sys2Proof.Machine
end

