-- ==== Sys2Proof/Safety.lean ====
section
/-! DEFINITION. What counts as a sound state of the LK-816: the properties that the spec states of the
part at every moment, one predicate per block, in the terms the claims use. -/

namespace Sys2Proof.Machine

/-- The memory's canonical form: keys strictly rising, each a physical word's, no zero word listed. -/
abbrev memCanonical (m : List (Nat × StoredWord)) : Prop :=
  m.Pairwise (fun x y => x.1 < y.1) ∧ ∀ e ∈ m, e.1 < wordCount ∧ e.2 ≠ StoredWord.zero

/-- The wait counts keep their ranges, 0–4 and 0–16 (R12, R13). -/
abbrev State.waitsInRange (s : State) : Prop := s.store.hostWait ≤ 4 ∧ s.store.maintWait ≤ 16

/-- While the store is free in RUNNING, no claim waits (R11), but for the arbiter's choice that the next
waiting command withdraws (R87, R137, log entry 21) and for the claiming read of a step that the end of
the start-up fill has just started: its grant comes before anything else (R11, R179, log entry 22). -/
abbrev State.noIdleClaim (s : State) : Prop :=
  s.store.device = .running → s.store.access = none → ∀ c ∈ s.choose,
    s.withdrawalWaits c = true ∨ s.onlyTheStepWaits = true

/-- A well-formed descriptor: ORDER 4–10, BASE + 2^k at most 8191 (R23, R27). -/
abbrev Bank.wf (b : Bank) : Prop := orderValid b.order = true ∧ b.fits = true

/-- A well-formed context: both descriptors, and CLAMP_LO at most CLAMP_HI (R23, R79). -/
abbrev Context.wf (c : Context) : Prop :=
  c.bankA.wf ∧ c.bankB.wf ∧ c.clampLo.toInt ≤ c.clampHi.toInt

/-- A well-formed snapshot (R58, R79). -/
abbrev Snapshot.wf (n : Snapshot) : Prop := n.bank.wf ∧ n.clampLo.toInt ≤ n.clampHi.toInt

/-- The snapshot of a WAITING or READING slot is well formed. -/
def Slot.wf (sl : Slot) : Prop :=
  match sl.phase with
  | .waiting _ n => n.wf
  | .reading _ n => n.wf
  | .done _ => True

/-- Every descriptor, every clamp pair and every snapshot is as the window checks leave it (R23, R79). -/
def State.contextsWf (s : State) : Prop :=
  (∀ c ∈ s.channels.toList, c.wf) ∧ ∀ sl ∈ s.link.queue, sl.wf

/-- The lookup queue holds at most 8 slots (R52). -/
abbrev State.queueBounded (s : State) : Prop := s.link.queue.length ≤ 8

def Slot.isReading (sl : Slot) : Bool :=
  match sl.phase with
  | .reading _ _ => true
  | _ => false

def Slot.isWaiting (sl : Slot) : Bool :=
  match sl.phase with
  | .waiting _ _ => true
  | _ => false

/-- The access in progress is a lookup read whose slot is still in the queue. -/
def Access.isCurrentLookup : Access → Bool
  | .read .lookup _ i => i == .wanted
  | _ => false

/-- The access in progress is a lookup read whose slot has been discarded. -/
def Access.isDrainedLookup : Access → Bool
  | .read .lookup _ i => i != .wanted
  | _ => false

/-- The engine and the queue agree (R59, R68, R69): exactly one READING slot while the engine evaluates
and none otherwise; an IDLE engine leaves no slot WAITING; a lookup read in progress is the current
slot's while it evaluates, and the drained one, always present, in DRAINING. -/
abbrev State.engineAgrees (s : State) : Prop :=
  s.link.queue.countP Slot.isReading = (if s.engine.evaluating then 1 else 0) ∧
    (s.engine = .idle → ∀ sl ∈ s.link.queue, sl.isWaiting = false) ∧
    (∀ a ∈ s.store.access, a.isCurrentLookup = true → s.engine.evaluating = true) ∧
    ((∃ a ∈ s.store.access, a.isDrainedLookup = true) ↔
      s.engine ≠ .idle ∧ s.engine.evaluating = false)

/-- The progress record of the slot being read (Table 5-1): index below 2^k and fraction below 2^(16−k),
k the ORDER of its snapshot (R71). -/
def State.engineInRange (s : State) : Prop :=
  ∀ ch snap, readingSlot s.link.queue = some (ch, snap) →
    (∀ p, s.engine = .firstRead p →
      p.index < 2 ^ snap.bank.order.toNat ∧ p.fraction < 2 ^ (16 - snap.bank.order.toNat)) ∧
    ∀ p e, s.engine = .secondRead p e →
      p.index < 2 ^ snap.bank.order.toNat ∧ p.fraction < 2 ^ (16 - snap.bank.order.toNat)

/-- The stall timer runs exactly while the head is DONE (R51, R61). -/
abbrev State.stallFollowsOffer (s : State) : Prop :=
  s.link.stall.isSome = headDone s.link.queue

/-- No running timer stands past its setting unexpired: the stall timer has expired for this head, or
LINK_TIMEOUT is 0 or still ahead (R61, R62), and a pacing patrol's interval is still ahead (R144, R145). -/
abbrev State.timersNotOverdue (s : State) : Prop :=
  (∀ u ∈ s.link.stall,
    u.expired = true ∨ s.link.timeout = 0 ∨ u.elapsed < s.link.timeout.toNat) ∧
    (s.patrol.phase = .pacing → ∀ t ∈ s.patrol.timer, t < s.patrol.interval.toNat)

/-- At most 16 error records, no two with the same address and kind, each COUNT at least 1 (R89, R90). -/
abbrev ErrorQueue.wf (q : ErrorQueue) : Prop :=
  q.records.length ≤ 16 ∧
    q.records.Pairwise (fun x y => ¬(x.address = y.address ∧ x.kind = y.kind)) ∧
    ∀ r ∈ q.records, r.count ≠ 0

/-- The valid entries of the spare map. -/
def Sparing.entries (sp : Sparing) : List MapEntry := sp.map.toList.filterMap id

/-- The slot a retire operation has allocated, in phase WRITE. -/
def Sparing.allocated (sp : Sparing) : Option SlotNo :=
  match sp.retire with
  | some r =>
    match r.phase with
    | .write c => some c.slot
    | .read => none
  | none => none

/-- Map and slots agree (R105, R107, R112): no two valid entries name one address or one slot; a slot is
MAPPED exactly if a valid entry names it; poison only on a MAPPED slot; an allocated slot is FREE. -/
abbrev Sparing.wf (sp : Sparing) : Prop :=
  (sp.entries.map MapEntry.address).Nodup ∧ (sp.entries.map MapEntry.slot).Nodup ∧
    (∀ k : SlotNo, sp.slots[k].state = .mapped ↔ k ∈ sp.entries.map MapEntry.slot) ∧
    (∀ k : SlotNo, sp.slots[k].poison = true → sp.slots[k].state = .mapped) ∧
    ∀ k ∈ sp.allocated, sp.slots[k].state = .free

/-- The four tickets: each is free or held by one job queued, running or completed (R121). -/
abbrev Maint.ticketsAccounted (m : Maint) : Prop :=
  m.ticketsFree + m.queue.length + m.run.toList.length + m.completions.length = 4

/-- A job's arguments are ones its command accepts (R123). -/
abbrev Job.wf (j : Job) : Prop := 1 ≤ j.count ∧ j.start.toNat + j.count ≤ 8192

/-- Every job queued or running has accepted arguments, and a running one has words left (R128, R129). -/
abbrev Maint.jobsWf (m : Maint) : Prop :=
  (∀ j ∈ m.queue, j.wf) ∧ ∀ j ∈ m.run, j.job.wf ∧ j.wordsDone < j.job.count

/-- No counting FILL range meets the protected set (R44, R124, R138). -/
abbrev State.fillsUnprotected (s : State) : Prop :=
  ∀ r ∈ s.maint.fillRanges, s.rangeProtected r = false

/-- The maintenance engine does one thing at a time (R126, R127, R143): no job runs during a patrol
step; a step is in progress exactly in CLAIMING, CHECKING and REPAIRING; the interval timer runs
exactly in PACING; and PACING, YIELDING and OFF have the ENABLE and engine busy that Table 9-2 gives. -/
abbrev State.maintExclusive (s : State) : Prop :=
  (s.maint.run.isSome → s.patrol.step = none) ∧
    (s.patrol.step.isSome ↔
      s.patrol.phase = .claiming ∨ s.patrol.phase = .checking ∨ s.patrol.phase = .repairing) ∧
    (s.patrol.timer.isSome ↔ s.patrol.phase = .pacing) ∧
    (s.patrol.phase = .pacing → s.patrol.enable = true ∧ s.maint.busy = false) ∧
    (s.patrol.phase = .yielding → s.patrol.enable = true ∧ s.maint.busy = true) ∧
    (s.patrol.phase = .off → s.store.device = .running → s.patrol.enable = false)

/-- The queue of jobs waits only behind a running job or a patrol step (R127). -/
abbrev State.queueWaits (s : State) : Prop :=
  s.maint.queue ≠ [] → s.maint.run.isSome ∨ s.patrol.step.isSome

/-- A retire operation in progress is the running RETIRE job's or the patrol step's (R111, R130, R151). -/
def State.retireOwned (s : State) : Prop :=
  match s.sparing.retire with
  | none =>
    (∀ j ∈ s.maint.run, j.job.kind ≠ .retire) ∧ ∀ st ∈ s.patrol.step, st.retiring = false
  | some r =>
    match r.source with
    | .job => ∃ j ∈ s.maint.run, j.job.kind = .retire ∧ j.job.start = r.address
    | .patrol =>
      ∃ st ∈ s.patrol.step, st.retiring = true ∧ st.address = r.address ∧ s.patrol.phase = .repairing

/-- The claimed-word mark holds the address of the step or operation that set it (R16). -/
def State.markOwned (s : State) : Prop :=
  ∀ a ∈ s.store.mark,
    (∃ r ∈ s.sparing.retire, r.address = a) ∨
      ∃ st ∈ s.patrol.step, st.address = a ∧
        (s.patrol.phase = .checking ∨ s.patrol.phase = .repairing)

/-- A maintenance access that its operation still awaits is the one that operation asked for (R1, R112,
R113, R128, R129, R147, R149), and a patrol that checks has its read in progress (R143). -/
def State.accessOwned (s : State) : Prop :=
  (match s.store.access with
  | some (.read .retire _ .wanted) => ∃ r ∈ s.sparing.retire, r.phase = .read
  | some (.write .spare _ .wanted) => ∃ r ∈ s.sparing.retire, r.phase ≠ .read
  | some (.read .patrol _ .wanted) => s.patrol.phase = .checking
  | some (.write .writeBack _ .wanted) => s.patrol.phase = .repairing ∧ s.sparing.retire = none
  | some (.write .fill _ .wanted) => ∃ j ∈ s.maint.run, j.job.kind = .fill
  | some (.read .verify _ .wanted) => ∃ j ∈ s.maint.run, j.job.kind = .verify
  | _ => True) ∧
    (s.patrol.phase = .checking → ∃ r, s.store.access = some (.read .patrol r .wanted))

/-- The maintenance engine in whole: one thing at a time, a queue that waits for something, and every
retire operation, claimed word and maintenance access owned by what is in progress. -/
abbrev State.maintSound (s : State) : Prop :=
  s.maintExclusive ∧ s.queueWaits ∧ (s.store.device = .startUp → s.patrol.phase = .off) ∧
    s.retireOwned ∧ s.markOwned ∧ s.accessOwned

/-- The fields with restricted values hold them: TIMEBASE 8–100 (R173), MAINT_SHARE 1–16 (R14), the
window index below the window's size (R169, R170). -/
abbrev State.registersInRange (s : State) : Prop :=
  (8 ≤ s.host.timebase.toNat ∧ s.host.timebase.toNat ≤ 100) ∧
    (1 ≤ s.patrol.share.toNat ∧ s.patrol.share.toNat ≤ 16) ∧
    s.host.index.toNat < s.host.window.size

/-- In START_UP the other blocks are held idle (Table 2-10, R22, R52, R89, R140, R155, R167), and the
fill runs or RESET# is asserted; in RUNNING neither is so (R18, R19). -/
abbrev State.startUpQuiet (s : State) : Prop :=
  (s.store.device = .startUp →
    s.store.access = none ∧ s.link.queue = [] ∧ s.engine = .idle ∧ s.errors.records = [] ∧
      s.sparing.retire = none ∧ s.maint.queue = [] ∧ s.maint.run = none ∧
      s.maint.completions = [] ∧ s.patrol.phase = .off ∧ s.patrol.step = none ∧
      s.host.holder = .empty ∧ s.host.posted = none ∧ s.host.stretch = none ∧
      (∀ c ∈ s.channels.toList, c.state = .disabled ∧ c.armed = false) ∧
      (s.store.fill.isSome ↔ s.store.resetAsserted = false)) ∧
    (s.store.device = .running → s.store.fill = none ∧ s.store.resetAsserted = false)

/-- A stretched access waits for something: a read for a PENDING prefetch, a write for an earlier posted
write (R157). -/
abbrev State.stretchWaits (s : State) : Prop :=
  (s.host.stretch = some .read → s.host.holder = .pending) ∧
    ∀ v, s.host.stretch = some (.write v) → s.host.posted.isSome

/-- The arbiter owes no grant: the state is not the one right after the end of the start-up fill, with
the step that it started in CLAIMING on a free store (R11, R179, log entry 22). -/
abbrev State.noGrantOwed (s : State) : Prop :=
  s.store.device = .running → s.store.access = none → s.onlyTheStepWaits = false

/-! ## The words the statements use -/

/-- The host's bus is free, no access being stretched (R157), and no grant is owed. -/
abbrev State.takesHostAccess (s : State) : Prop := s.host.stretch = none ∧ s.noGrantOwed

/-- The host's bus is free and the device RUNNING (R157, R171). -/
abbrev State.takesCommands (s : State) : Prop := s.takesHostAccess ∧ s.store.device = .running

/-- The state with COMMAND_RESULT showing a result code and a job ID field (R172). -/
def State.showing (s : State) (c : ResultCode) (id : BitVec 8) : State :=
  { s with host := { s.host with result := c, resultJob := id } }

/-- The commands that complete an access in progress (Table 2-6, R2, R86). -/
def Access.completions : Access → List Instr
  | .read .lookup _ _ => [.lookupReadCompletion, .drainedReadCompletion]
  | .read .prefetch _ _ => [.prefetchCompletion]
  | .read .verify _ _ => [.verifyReadCompletion]
  | .read .retire _ _ => [.retireReadCompletion]
  | .read .patrol _ _ => [.patrolReadCompletion]
  | .write .posted _ _ => [.postedWriteCompletion]
  | .write .fill _ _ => [.fillWordCompletion]
  | .write .spare _ _ => [.spareWriteCompletion]
  | .write .writeBack _ _ => [.writeBackCompletion]

/-- The state with its store free, as at the completion of the access in progress (R1). -/
def State.storeFreed (s : State) : State := { s with store := { s.store with access := none } }

/-- The slot a request word makes, its fields in the positions of Table 11-5 (R52, R180). -/
def requestSlot (w : BitVec 29) (p : SlotPhase) : Slot where
  kind := w.extractLsb' 26 2
  channel := (w.extractLsb' 22 4).toFin
  tag := w.extractLsb' 16 6
  phase := p

/-- The link with a slot joined at the tail of its queue; a DONE slot that joins an empty queue is
offered, and the stall timer starts at 0 (R53, R61). -/
def Link.joined (l : Link) (sl : Slot) : Link where
  queue := l.queue ++ [sl]
  frame := l.frame
  enable := l.enable
  linkRst := l.linkRst
  timeout := l.timeout
  stall :=
    if l.queue = [] ∧ sl.isDone = true then some { elapsed := 0, expired := false } else l.stall

/-- A queued or running FILL job writes some address of the bank range (R36, R138). -/
def State.fillMeets (s : State) (b : Bank) : Prop :=
  ∃ j ∈ s.maint.live, j.kind = .fill ∧
    ∃ a : Nat, (b.base.toNat ≤ a ∧ a ≤ b.base.toNat + 2 ^ b.order.toNat) ∧
      j.start.toNat ≤ a ∧ a < j.start.toNat + j.count

/-- The wait counts after a grant to the lookup engine: each waiting claimant of the other two has
waited through one more (R12, R13). -/
def State.waitsAfterLookup (s : State) : Nat × Nat :=
  (if s.hostClaim.isSome then min 4 (s.store.hostWait + 1) else s.store.hostWait,
    if s.maintClaim.isSome then min 16 (s.store.maintWait + 1) else s.store.maintWait)

/-- The maintenance wait count after a grant to the host table port (R13). -/
def State.maintWaitAfterHost (s : State) : Nat :=
  if s.maintClaim.isSome then min 16 (s.store.maintWait + 1) else s.store.maintWait

/-- The slots after a write addressed by a main address that reaches place `p`: its slot's poison flag
is clear (R2). -/
def Sparing.slotsAfterWrite (sp : Sparing) : Place → Vector SpareSlot 16
  | .main _ => sp.slots
  | .spare k => sp.slots.set k { sp.slots[k] with poison := false }

/-- The state with the record of one channel replaced. -/
def State.withChan (s : State) (ch : Chan) (c : Context) : State :=
  { s with channels := s.channels.set ch c }

end Sys2Proof.Machine
end

