-- ==== Sys2Proof/WellFormed.lean ====
section
/-! DEFINITION. Which terms of Instr are commands of the table: the three rows whose operands the
spec restricts. -/

namespace Sys2Proof

/-- A command is well formed when its operands are ones its row speaks of: a disturbance changes at
least one stored bit (R7); REGISTER_WRITE names a register without a row of its own (its row: "a
register without behaviour of its own … or of a read-only or empty offset"); UNKNOWN_COMMAND carries
a code that is none of the thirteen (R171). -/
def Instr.wellFormed : Instr → Bool
  | .storedBitDisturbance _ d c => decide (d ≠ 0 ∨ c ≠ 0)
  | .registerWrite sel _ => decide (sel ∉ ownRowSelects)
  | .unknownCommand w => (commandOfCode (commandCode w)).isNone
  | _ => true

end Sys2Proof
end

