-- ==== Sys2Proof/Certificates/Slice0/Obligations.lean ====
section
/-! DEFINITION. The statements about the LK-816: one definition per statement, grouped as the spec's
chapters are. A statement whose whole next state is written out says by that what the command leaves
unchanged. -/

open Sys2Proof Sys2Proof.Machine

/-! ## The machine -/

/-- The command at the front of the queue is the one a step takes: the step is its effect on the state
with the queue's rest. -/
def Obligations.StepTakesTheFrontCommand : Prop :=
  ∀ (c : Instr) (s : State), step { s with pending := c :: s.pending } = exec c s

/-- Every command answers a next state, never a fault or a refusal, and leaves the waiting commands and
the level of LINK_RST alone but for the two commands that are that level's own. A grant that the end of
the start-up fill leaves owed comes before whatever a command or a tick does (R11): each acts on the state
with that grant made, which every statement below with the premise `noGrantOwed` then covers; in every
other state there is none to make (the model's reading, log entry 22). MODEL'S CHOICE: a command without
an occasion changes nothing (log entry 4), and a device reset keeps that level (log entry 9). -/
def Obligations.EveryCommandCompletes : Prop :=
  (∀ (c : Instr) (s : State), ∃ t, exec c s = .next t ∧ t.pending = s.pending ∧
     t.link.linkRst =
       (match c with
       | .linkRstAssert => true
       | .linkRstRelease => false
       | _ => s.link.linkRst)) ∧
  (∀ s : State,
     (s.noGrantOwed → s.grantOwed = s) ∧ s.grantOwed.noGrantOwed ∧
     (¬s.noGrantOwed → ∃ a, s.maintClaim = some (.claimingRead .patrol a) ∧
       s.grantOwed = { s with
         store := { s.store with
           access := some (.read .patrol (s.sense a) .wanted), maintWait := 0, mark := some a }
         patrol := { s.patrol with phase := .checking } }) ∧
     (∀ c : Instr, exec c s = exec c s.grantOwed) ∧
     (s.pending = [] → step s = step s.grantOwed))

/-- MODEL'S CHOICE (log entry 6). With no command waiting, a step is one microsecond tick: a running
stall timer counts up to 65535 and expires at LINK_TIMEOUT with LINK_STALL set (R61), a pacing patrol's
timer counts and starts a step at PATROL_INTERVAL (R144), and with both timers stopped and no claim left
to grant nothing changes. -/
def Obligations.EmptyQueueLetsOneTickPass : Prop :=
  ∀ s : State, s.pending = [] → (s.patrol.timer ≠ none → s.patrol.phase = .pacing) →
    let due (u : StallTimer) : Bool := decide (s.link.timeout ≠ 0) &&
      decide (s.link.timeout.toNat ≤ min 65535 (u.elapsed + 1))
    let base : State := { s with
      link := { s.link with
        stall := s.link.stall.map (fun u =>
          { elapsed := min 65535 (u.elapsed + 1), expired := u.expired || due u }) }
      host := { s.host with flags := { s.host.flags with
        linkStall := s.host.flags.linkStall || s.link.stall.any (fun u => !u.expired && due u) } } }
    (s.patrol.timer = none → step s = .next base.settle) ∧
    (∀ n, s.patrol.timer = some n →
      (n + 1 < s.patrol.interval.toNat →
        step s = .next
          ({ base with patrol := { s.patrol with timer := some (n + 1) } } : State).settle) ∧
      (s.patrol.interval.toNat ≤ n + 1 → step s = .next ({ base with patrol := { s.patrol with
        phase := .claiming, timer := none
        step := some
          { address := s.patrol.pointer, outcome := none, data := 0, cancel := false
            retiring := false } } } : State).settle)) ∧
    (s.link.stall = none → s.patrol.timer = none →
      s.store.device = .startUp ∨ s.store.access ≠ none ∨ s.choose = none → step s = .next s)

/-- The state after reset meets every invariant stated below. -/
def Obligations.ResetMeetsTheInvariants : Prop :=
  memCanonical State.reset.store.mem ∧ State.reset.waitsInRange ∧ State.reset.queueBounded ∧
    State.reset.registersInRange ∧ State.reset.noIdleClaim ∧ State.reset.contextsWf ∧
    State.reset.engineAgrees ∧ State.reset.stallFollowsOffer ∧ State.reset.errors.wf ∧
    State.reset.sparing.wf ∧ State.reset.maint.ticketsAccounted ∧ State.reset.maint.jobsWf ∧
    State.reset.fillsUnprotected ∧ State.reset.maintSound ∧ State.reset.startUpQuiet ∧
    State.reset.stretchWaits ∧ State.reset.engineInRange ∧ State.reset.timersNotOverdue ∧
    (∀ k, State.reset.store.fill = some k → k < 8208) ∧ State.reset.store.access = none

/-! ## Device reset and start-up (2.7) -/

/-- Every register, queue and timer after DEVICE_RESET, at the values the tables of the chapters give,
and the words: kept, but for the one being written. MODEL'S CHOICE: a power-on with RESET# asserted, which
that cause covers, keeps the words too (log entry 2); LINK_RST is a signal and keeps its
level (log entry 9), and of the output record a stretched read returns 0 (R157, log entry 5). -/
def Obligations.DeviceResetSetsEveryBlock : Prop :=
  ∀ (cause : ResetCause) (s : State), ∃ t, exec (.deviceReset cause) s = .next t ∧
    (t.store.access = none ∧ t.store.hostWait = 0 ∧ t.store.maintWait = 0 ∧ t.store.mark = none ∧
      t.store.device = .startUp) ∧
    (cause = .pinAsserted → t.store.fill = none ∧ t.store.resetAsserted = true) ∧
    (cause = .powerOn → t.store.fill = some 0 ∧ t.store.resetAsserted = false) ∧
    (∀ ch : Chan, t.channels[ch] =
      { state := .disabled, armed := false, activeBank := .a
        bankA := ⟨0, 4, .linear⟩, bankB := ⟨0, 4, .linear⟩, inOffset := 0
        clampLo := BitVec.ofInt 16 (-32768), clampHi := 32767, policy := .holdLast
        substitute := 0, suspendLimit := 0, uncorrCount := 0, lastGood := 0, swapFrame := 0 }) ∧
    t.link =
      { queue := [], frame := 0, enable := false, linkRst := s.link.linkRst, timeout := 0
        stall := none } ∧
    t.engine = .idle ∧ t.errors = { records := [], loss := 0 } ∧
    ((∀ k : SlotNo, t.sparing.slots[k] = { state := .free, poison := false }) ∧
      (∀ k : SlotNo, t.sparing.map[k] = none) ∧ t.sparing.retire = none) ∧
    t.maint =
      { ticketsFree := 4, queue := [], run := none, completions := [], nextId := 0
        argA := 0, argB := 0, argC := 0 } ∧
    t.patrol =
      { enable := false, retireLimit := 4, share := 8, interval := 100, pointer := 0, passes := 0
        phase := .off, timer := none, step := none } ∧
    t.host =
      { timebase := 25
        flags := ⟨false, false, false, false, false, false, false, false, false⟩
        intEnable := 0, pointer := 0, holder := .empty, posted := none, refusedCount := 0
        refusedAddress := 0, outcome := .starting, window := .context, index := 0, winStatus := .ok
        result := .ok, resultJob := 0, stretch := none } ∧
    t.outputs =
      { s.outputs with
        readData := if s.host.stretch = some .read then 0 else s.outputs.readData } ∧
    (memCanonical s.store.mem → cause = .pinAsserted → ∀ p : Place,
      s.store.fill ≠ some p.key →
      (∀ tag i, s.store.access ≠ some (.write tag (some p.key) i)) → t.word p = s.word p)

/-- The release of RESET# clears the spare map and begins the fill. MODEL'S CHOICE: with RESET# not
asserted there is no release (log entry 4), a fill write stores its word at its completion (log entry
11), and a step that the last one starts is left in CLAIMING, as R179 reads it, its grant coming before
anything else happens (R11; the model's reading, log entries 8 and 22). Each fill write stores data 0
with check field 0 in its word and no other, and hands on to the next word of the 8,208; the last one
ends START_UP: START_DONE is set, PREFETCH_OUTCOME becomes NONE, and the patrol stays OFF, paces from 0
or starts a step, by ENABLE and PATROL_INTERVAL (R19, R144, R154); with the free count 16, DEVICE_STATUS
then reads 0x0990, 0x1990 or 0x3990 (R179). -/
def Obligations.StartUpFillClearsTheStore : Prop :=
  (∀ s : State, s.noGrantOwed →
     (s.store.resetAsserted = true → exec .resetRelease s = .next { s with
       store := { s.store with resetAsserted := false, fill := some 0 }
       sparing :=
         { slots := Vector.replicate 16 { state := .free, poison := false }
           map := Vector.replicate 16 none, retire := s.sparing.retire } }) ∧
     (s.store.resetAsserted = false → exec .resetRelease s = .next s)) ∧
  (∀ (s : State) (k : Nat), s.store.device = .startUp → s.store.fill = some k → k < 8208 →
     memCanonical s.store.mem → s.startUpQuiet → ∃ t,
       exec .startUpFillWriteCompletion s = .next t ∧
       memRead t.store.mem k = { data := 0, check := 0 } ∧
       (∀ j, j ≠ k → memRead t.store.mem j = memRead s.store.mem j) ∧
       (k < 8207 → t = { s with store := { s.store with mem := t.store.mem, fill := some (k + 1) } }) ∧
       (k = 8207 →
         t = { s with
           store := { s.store with mem := t.store.mem, device := .running, fill := none }
           host := { s.host with
             outcome := .none, flags := { s.host.flags with startDone := true } }
           patrol :=
             if s.patrol.enable = false then { s.patrol with phase := .off, timer := none }
             else if s.patrol.interval ≠ 0 then
               { s.patrol with phase := .pacing, timer := some 0 }
             else
               { s.patrol with
                 phase := .claiming, timer := none
                 step := some
                   { address := s.patrol.pointer, outcome := none, data := 0, cancel := false
                     retiring := false } } } ∧
         t.store.access = none ∧
         ((∀ n : SlotNo, s.sparing.slots[n].state = .free) → t.readRegister 1 =
           if s.patrol.enable = false then 0x0990
           else if s.patrol.interval ≠ 0 then 0x1990 else 0x3990)))

/-- Through the fill, every word before the one being written holds data 0 and check field 0, whatever
commands come but a disturbance; so does every word when the fill completes. -/
def Obligations.FilledWordsStayZero : Prop :=
  ∀ (c : Instr) (s t : State) (k : Nat), memCanonical s.store.mem → s.startUpQuiet →
    s.store.device = .startUp → s.store.fill = some k → k < 8208 →
    (∀ p : Place, p.key < k → s.word p = { data := 0, check := 0 }) →
    (∀ p d m, c ≠ .storedBitDisturbance p d m) → exec c s = .next t →
    (∀ n, t.store.fill = some n → ∀ p : Place, p.key < n → t.word p = { data := 0, check := 0 }) ∧
    (t.store.device = .running → ∀ p : Place, t.word p = { data := 0, check := 0 })

/-! ## The check code and the words (2.2, 2.3) -/

/-- R4 and Table 2-2: the check bits of a written word, the exclusive-or of the syndrome values of its
data bits that are 1, the values of the sixteen data bits and of the six check bits, and the
examples. -/
def Obligations.CheckBitsFollowTheTable : Prop :=
  (∀ d : Data,
    let x (l : List Nat) : Bool := l.foldl (fun b i => b ^^ d.getLsbD i) false
    let values : List (BitVec 6) := [7, 11, 13, 14, 19, 21, 22, 25, 26, 28, 35, 37, 38, 41, 42, 44]
    (checkField d).getLsbD 0 = x [0, 1, 2, 4, 5, 7, 10, 11, 13] ∧
    (checkField d).getLsbD 1 = x [0, 1, 3, 4, 6, 8, 10, 12, 14] ∧
    (checkField d).getLsbD 2 = x [0, 2, 3, 5, 6, 9, 11, 12, 15] ∧
    (checkField d).getLsbD 3 = x [1, 2, 3, 7, 8, 9, 13, 14, 15] ∧
    (checkField d).getLsbD 4 = x [4, 5, 6, 7, 8, 9] ∧
    (checkField d).getLsbD 5 = x [10, 11, 12, 13, 14, 15] ∧
    checkField d = (values.zipIdx.map (fun v => if d.getLsbD v.2 then v.1 else 0)).foldl (· ^^^ ·) 0 ∧
    (∀ i : Nat, ∀ v, values[i]? = some v → checkField (BitVec.twoPow 16 i) = v) ∧
    ∀ j : Fin 6, syndromeOf { data := d, check := checkField d ^^^ BitVec.twoPow 6 j } =
      ([1, 2, 4, 8, 16, 32] : List (BitVec 6))[j]) ∧
  checkField 0 = 0 ∧ checkField 1 = 7 ∧ checkField 1000 = 18

/-- What a read of main address `a` senses: the spare slot that the valid entry for `a` names, or the
main word; POISONED from a MAPPED slot with its poison flag set; and otherwise Table 2-3 by the
syndrome. -/
def Obligations.ReadSensesTheResolvedWord : Prop :=
  ∀ (s : State) (a : Addr), s.sparing.wf →
    let p := (s.sense a).place
    let w := s.word p
    let syn := checkField w.data ^^^ w.check
    (s.sense a).address = a ∧
    (∀ e ∈ s.sparing.entries, e.address = a → p = .spare e.slot) ∧
    ((∀ e ∈ s.sparing.entries, e.address ≠ a) → p = .main a) ∧
    (∀ k : SlotNo, p = .spare k → s.sparing.slots[k].poison = true →
      (s.sense a).outcome = .poisoned ∧ (s.sense a).data = w.data ∧ (s.sense a).syndrome = 0) ∧
    ((∀ k : SlotNo, p = .spare k → s.sparing.slots[k].poison = false) →
      (s.sense a).syndrome = syn ∧
      (syn = 0 → (s.sense a).outcome = .clean ∧ (s.sense a).data = w.data) ∧
      (syn ∈ ([1, 2, 4, 8, 16, 32] : List (BitVec 6)) →
        (s.sense a).outcome = .corrected ∧ (s.sense a).data = w.data) ∧
      (∀ i : Nat,
        ([7, 11, 13, 14, 19, 21, 22, 25, 26, 28, 35, 37, 38, 41, 42, 44] :
          List (BitVec 6))[i]? = some syn →
        (s.sense a).outcome = .corrected ∧ (s.sense a).data = w.data ^^^ BitVec.twoPow 16 i) ∧
      (syn ≠ 0 → syn ∉ ([1, 2, 4, 8, 16, 32, 7, 11, 13, 14, 19, 21, 22, 25, 26, 28, 35, 37, 38, 41,
          42, 44] : List (BitVec 6)) →
        (s.sense a).outcome = .uncorrectable ∧ (s.sense a).data = w.data))

/-- Disturbed bits (R7, Table 2-4): a disturbance changes the one word and nothing else; no disturbed bit
reads CLEAN as written, one reads CORRECTED as written with the syndrome naming it, two read
UNCORRECTABLE as stored; an even number never reads CORRECTED, an odd number never CLEAN. `dm` and `cm`
are the disturbed data and check bits since data `d` was written. -/
def Obligations.DisturbedBitsReadByTheirNumber : Prop :=
  (∀ (s : State) (p : Place) (dm : BitVec 16) (cm : BitVec 6), memCanonical s.store.mem →
    s.noGrantOwed → ∃ t, exec (.storedBitDisturbance p dm cm) s = .next t ∧
      t.word p = { data := (s.word p).data ^^^ dm, check := (s.word p).check ^^^ cm } ∧
      (∀ q : Place, q ≠ p → t.word q = s.word q) ∧
      t = { s with store := { s.store with mem := t.store.mem } }) ∧
  ∀ (d dm : BitVec 16) (cm : BitVec 6),
    let r := decodeWord { data := d ^^^ dm, check := checkField d ^^^ cm }
    let n := onesCount dm + onesCount cm
    r.2.2 = checkField dm ^^^ cm ∧
    (n = 0 → r.1 = .clean ∧ r.2.1 = d) ∧
    (n = 1 → r.1 = .corrected ∧ r.2.1 = d) ∧
    (n = 2 → r.1 = .uncorrectable ∧ r.2.1 = d ^^^ dm) ∧
    (n % 2 = 0 → r.1 ≠ .corrected) ∧ (n % 2 = 1 → r.1 ≠ .clean) ∧ r.1 ≠ .poisoned

/-! ## The store arbiter and the grants (2.5, 2.6) -/

/-- Table 2-7 and the wait counts (R11 to R13): with the store free in RUNNING, the first row whose
condition holds is granted, the access in progress is then that claimant's, and the counts change as the
grant says; with no claim waiting, a busy store or START_UP, nothing is granted. The waiting claims are
those that the claimants' records ask for (the model's reading, log entry 8). The end of a completion
that presents its claimant's next claim makes the same grant, but when that claim is the choice and the
next waiting command withdraws it: a link reset or soft reset the lookup engine's (R87), ABORT_JOBS a
job's (R137); then nothing is granted (the model's reading of the two events that come together, log
entry 21). -/
def Obligations.GrantFollowsTheOrder : Prop :=
  ∀ s : State,
    let h := s.hostClaim.isSome = true
    let m := s.maintClaim.isSome = true
    let l := s.lookupClaim.isSome = true
    let hd := h ∧ s.store.hostWait = 4
    let md := m ∧ s.patrol.share.toNat ≤ s.store.maintWait
    let granted (c : Claimant) := ∃ a, s.settle.store.access = some a ∧ a.claimant = c ∧
      a.interest = .wanted
    (∀ c : Claimant,
      (s.withdrawalWaits c = true ↔ ∃ i rest, s.pending = i :: rest ∧
        (c = .lookup ∧ (i = .linkRstAssert ∨ s.host.stretch = none ∧ ∃ low, i = .softReset low) ∨
          c = .maint ∧ s.host.stretch = none ∧ ∃ low, i = .abortJobs low)) ∧
      (s.choose = some c ∧ s.withdrawalWaits c = true → s.settleTogether c = s) ∧
      (¬(s.choose = some c ∧ s.withdrawalWaits c = true) → s.settleTogether c = s.settle)) ∧
    (s.store.device = .startUp ∨ s.store.access ≠ none → s.settle = s) ∧
    (s.store.device = .running → s.store.access = none →
      (¬h → ¬m → ¬l → s.settle = s) ∧
      (hd ∨ (h ∧ ¬md ∧ ¬l) → granted .host ∧ s.settle.store.hostWait = 0 ∧
        ((∀ p, s.host.posted = some p → s.store.mark ≠ some p.address) →
          s.settle.store.maintWait = s.maintWaitAfterHost)) ∧
      (md ∧ ¬hd ∨ m ∧ ¬h ∧ ¬l → granted .maint ∧ s.settle.store.maintWait = 0 ∧
        s.settle.store.hostWait = s.store.hostWait) ∧
      (l ∧ ¬hd ∧ ¬md → granted .lookup ∧
        (s.settle.store.hostWait, s.settle.store.maintWait) = s.waitsAfterLookup))

/-- What each granted claim but a posted write does. The lookup read and the prefetch sense their word and
change nothing else; a VERIFY read is plain; a retire read and a patrol read set the claimed-word mark,
and the patrol read takes the patrol from CLAIMING to CHECKING (R3, R8, R16, R147). A FILL word or a
write-back puts the data with fresh check bits in the word its address reaches and clears that slot's
poison flag; the spare write puts the copy in its slot and leaves every flag; no other word changes (R2,
R8, R9, R128, R149). The word changes at the grant (the model's reading, log entry 11). -/
def Obligations.GrantedAccessesDoWhatTheirClaimsAsk : Prop :=
  (∀ (s : State) (a : Addr), s.store.device = .running → s.store.access = none →
     (s.choose = some .lookup → s.lookupClaim = some a → s.settle = { s with store := { s.store with
       access := some (.read .lookup (s.sense a) .wanted)
       hostWait := s.waitsAfterLookup.1, maintWait := s.waitsAfterLookup.2 } }) ∧
     (s.choose = some .host → s.host.posted = none → s.settle = { s with store := { s.store with
       access := some (.read .prefetch (s.sense s.host.pointer) .wanted)
       hostWait := 0, maintWait := s.maintWaitAfterHost } }) ∧
     (s.choose = some .maint →
       (s.maintClaim = some (.plainRead .verify a) → s.settle = { s with store := { s.store with
         access := some (.read .verify (s.sense a) .wanted), maintWait := 0 } }) ∧
       (s.maintClaim = some (.claimingRead .retire a) → s.settle = { s with store := { s.store with
         access := some (.read .retire (s.sense a) .wanted), maintWait := 0, mark := some a } }) ∧
       (s.maintClaim = some (.claimingRead .patrol a) → s.settle = { s with
         store := { s.store with
           access := some (.read .patrol (s.sense a) .wanted), maintWait := 0, mark := some a }
         patrol := { s.patrol with phase := .checking } }))) ∧
  (∀ (s : State) (a : Addr) (d : Data) (k : SlotNo), s.store.device = .running →
     s.store.access = none → memCanonical s.store.mem → s.choose = some .maint →
     (∀ tag, s.maintClaim = some (.write tag a d) →
       (∀ q : Place, s.settle.word q =
         if q = s.resolve a then { data := d, check := checkField d } else s.word q) ∧
       s.settle = { s with
         store := { s.store with
           mem := s.settle.store.mem, maintWait := 0
           access := some (.write tag (some (s.resolve a).key) .wanted) }
         sparing := { s.sparing with slots := s.sparing.slotsAfterWrite (s.resolve a) } }) ∧
     (s.maintClaim = some (.spareWrite k d) →
       (∀ q : Place, s.settle.word q =
         if q = .spare k then { data := d, check := checkField d } else s.word q) ∧
       s.settle = { s with store := { s.store with
         mem := s.settle.store.mem, maintWait := 0
         access := some (.write .spare (some (Place.spare k).key) .wanted) } }))

/-- The grant of a posted write (R164, R165, R2, R17). Inside the protected set no word changes, the
refusal is counted up to 255, its address latched from a count of 0, and WRITE_REFUSED set; outside it,
the word takes the data and its slot's poison flag clears. Taken on the claimed word, the write is also
reported: a retire operation between its read and its spare write takes it as its copy, poison mark
clear, and one still in READ is as it was (R115); and a patrol step is cancelled: its waiting write-back
is withdrawn and the step ends, or the cancel mark stays for its retire operation (R150); nothing else
changes. The word changes at the grant, and a claim that the
report lets a job or step present is not counted for it (the model's readings, log entries 11 and 13). -/
def Obligations.PostedWriteIsTakenRefusedOrReported : Prop :=
  (∀ (s : State) (p : Posted), s.store.device = .running → s.store.access = none →
     memCanonical s.store.mem → s.host.posted = some p → s.choose = some .host →
     (s.isProtected p.address.toNat = true → s.settle = { s with
       store := { s.store with
         access := some (.write .posted none .wanted)
         hostWait := 0, maintWait := s.maintWaitAfterHost }
       host := { s.host with
         refusedCount := if s.host.refusedCount = 255 then 255 else s.host.refusedCount + 1
         refusedAddress := if s.host.refusedCount = 0 then p.address else s.host.refusedAddress
         flags := { s.host.flags with writeRefused := true } } }) ∧
     (s.isProtected p.address.toNat = false → s.store.mark ≠ some p.address →
       (∀ q : Place, s.settle.word q =
         if q = s.resolve p.address then { data := p.data, check := checkField p.data }
         else s.word q) ∧
       s.settle = { s with
         store := { s.store with
           mem := s.settle.store.mem
           access := some (.write .posted (some (s.resolve p.address).key) .wanted)
           hostWait := 0, maintWait := s.maintWaitAfterHost }
         sparing := { s.sparing with slots := s.sparing.slotsAfterWrite (s.resolve p.address) } })) ∧
  (∀ (s : State) (p : Posted), s.store.device = .running → s.store.access = none →
     memCanonical s.store.mem → s.host.posted = some p → s.choose = some .host →
     s.isProtected p.address.toNat = false → s.store.mark = some p.address →
     (∀ q : Place, s.settle.word q =
       if q = s.resolve p.address then { data := p.data, check := checkField p.data }
       else s.word q) ∧
     (let taken : State := { s with
        store := { s.store with
          mem := s.settle.store.mem
          access := some (.write .posted (some (s.resolve p.address).key) .wanted)
          hostWait := 0, maintWait := s.maintWaitAfterHost }
        sparing := { s.sparing with
          slots := s.sparing.slotsAfterWrite (s.resolve p.address)
          retire := s.sparing.retire.map (fun r =>
            match r.phase with
            | .read => r
            | .write c =>
              if r.address = p.address then
                { r with phase := .write { c with copy := p.data, poison := false } }
              else r) } }
      ((∀ st, s.patrol.step = some st → st.address ≠ p.address) → s.settle = taken) ∧
      (∀ st, s.patrol.step = some st → st.address = p.address →
        (st.retiring = true ∨ s.patrol.phase ≠ .repairing → s.settle = { taken with
          patrol := { s.patrol with step := some { st with cancel := true } } }) ∧
        (st.retiring = false → s.patrol.phase = .repairing → s.settle =
          ({ taken with store := { taken.store with maintWait := 0 } } : State).endStep))))

/-- A word of the store changes at a step, a tick included, only by a disturbance of it, a device reset,
the fill's turn, or a write granted to it at that step, one that was not in progress before it: the store
was free, or the step's command completes the access then in progress (R1, R2, R3). That a granted write
changes its word at the grant is the model's reading (log entry 11). -/
def Obligations.WordsChangeOnlyByWritesAndDisturbance : Prop :=
  ∀ (s t : State) (p : Place), memCanonical s.store.mem → step s = .next t →
    t.word p ≠ s.word p →
    let front (c : Instr) : Prop := ∃ rest, s.pending = c :: rest
    (∃ d m, front (.storedBitDisturbance p d m)) ∨ (∃ cause, front (.deviceReset cause)) ∨
      (front .startUpFillWriteCompletion ∧ s.store.fill = some p.key) ∨
      ((∀ a, s.store.access = some a → ∃ c ∈ a.completions, front c) ∧
        ∃ tag d, t.store.access = some (.write tag (some p.key) .wanted) ∧
          t.word p = { data := d, check := checkField d })

/-! ## The protected set (3.7) -/

/-- The protected set is the union of the active banks of live channels, the armed banks, and the bound
ranges of slots whose reads are not finished, the drained one among them (R44). -/
def Obligations.ProtectedSetIsTheUnion : Prop :=
  ∀ (s : State) (a : Nat),
    let inBank (b : Bank) := b.base.toNat ≤ a ∧ a ≤ b.base.toNat + 2 ^ b.order.toNat
    s.isProtected a = true ↔
      (∃ ch : Chan, s.channels[ch].state ≠ .disabled ∧
        inBank (match s.channels[ch].activeBank with
          | .a => s.channels[ch].bankA
          | .b => s.channels[ch].bankB)) ∨
      (∃ ch : Chan, s.channels[ch].armed = true ∧
        inBank (match s.channels[ch].activeBank with
          | .a => s.channels[ch].bankB
          | .b => s.channels[ch].bankA)) ∨
      (∃ sl ∈ s.link.queue, ∃ x n, (sl.phase = .waiting x n ∨ sl.phase = .reading x n) ∧
        inBank n.bank) ∨
      ∃ ch b f, s.engine = .draining ch b f ∧ inBank b

/-- HEADLINE. No command changes the word that a protected address reaches, but a disturbance, a device
reset, and the patrol's write-back of that very word (R44, R164): neither a host write nor a FILL word
does, nor a retire operation's spare write. That a granted write changes its word at the grant is the
model's reading (log entry 11). -/
def Obligations.ProtectedWordsKeepTheirValue : Prop :=
  ∀ (c : Instr) (s t : State) (a : Addr), memCanonical s.store.mem → s.store.device = .running →
    s.startUpQuiet → s.fillsUnprotected → s.maint.jobsWf → s.sparing.wf → s.maintSound →
    (∀ p d m, c ≠ .storedBitDisturbance p d m) → (∀ cause, c ≠ .deviceReset cause) →
    exec c s = .next t → t.isProtected a.toNat = true →
    t.word (t.resolve a) = s.word (t.resolve a) ∨
      t.store.access = some (.write .writeBack (some (t.resolve a).key) .wanted)

/-! ## The sample link (chapter 4) -/

/-- The link is open in RUNNING with the link enable set, LINK_RST not asserted and fewer than 8 slots;
while it is not, an offered word is not taken and nothing changes (R49). A word with an odd number of
ones is answered LINK_PARITY, sets LINK_ERROR and does nothing else, whatever its kind (R54); one with
good parity and kind 2 or 3 is answered BAD_KIND (R55); a LOOKUP on a DISABLED channel CHANNEL_OFF, on a
SUSPENDED one SUSPENDED with the fallback of its current POLICY (R57); none of them has another
effect; claims are then granted as at any event. -/
def Obligations.WordsAnsweredAtAcceptanceChangeNothingElse : Prop :=
  (∀ (s : State) (w : BitVec 29),
     (s.linkOpen = true ↔ s.store.device = .running ∧ s.link.enable = true ∧
       s.link.linkRst = false ∧ s.link.queue.length < 8) ∧
     (s.linkOpen = false → s.noGrantOwed → exec (.requestAcceptance w) s = .next s)) ∧
  (∀ (s : State) (w : BitVec 29), s.linkOpen = true → s.stallFollowsOffer → s.noGrantOwed →
     (onesCount w % 2 = 1 → exec (.requestAcceptance w) s = .next ({ s with
       link := s.link.joined (requestSlot w (.done
         { disposition := .linkParity, corrected := false, clamped := false, result := 0 }))
       host := { s.host with flags := { s.host.flags with linkError := true } } } : State).settle) ∧
     (onesCount w % 2 = 0 → 2 ≤ (w.extractLsb' 26 2).toNat →
       exec (.requestAcceptance w) s = .next ({ s with
         link := s.link.joined (requestSlot w (.done
           { disposition := .badKind, corrected := false, clamped := false, result := 0 })) }
         : State).settle)) ∧
  (∀ (s : State) (w : BitVec 29) (ch : Chan), s.linkOpen = true → s.stallFollowsOffer →
     s.noGrantOwed → onesCount w % 2 = 0 → w.extractLsb' 26 2 = 0 → (w.extractLsb' 22 4).toNat = ch.val →
     (s.channels[ch].state = .disabled → exec (.requestAcceptance w) s = .next ({ s with
       link := s.link.joined (requestSlot w (.done
         { disposition := .channelOff, corrected := false, clamped := false, result := 0 })) }
       : State).settle) ∧
     (s.channels[ch].state = .suspended → exec (.requestAcceptance w) s = .next ({ s with
       link := s.link.joined (requestSlot w (.done
         { disposition := .suspended, corrected := false, clamped := false
           result := match s.channels[ch].policy with
             | .holdLast => s.channels[ch].lastGood
             | .substitute => s.channels[ch].substitute
             | .reject => 0 })) } : State).settle))

/-- A frame mark advances the frame counter, commits every armed channel whatever its state and sets
SWAP_DONE if one committed, and is answered FRAME_ACK with the new counter, as one event (R37, R56);
claims are then granted as at any event. -/
def Obligations.FrameMarkCommitsEveryArmedChannel : Prop :=
  ∀ (s : State) (w : BitVec 29), s.linkOpen = true → s.stallFollowsOffer → s.noGrantOwed →
    onesCount w % 2 = 0 → w.extractLsb' 26 2 = 1 → ∃ t : State,
    exec (.requestAcceptance w) s = .next t.settle ∧
    (∀ ch : Chan, t.channels[ch] =
      if s.channels[ch].armed = true then
        { s.channels[ch] with
          activeBank := match s.channels[ch].activeBank with
            | .a => .b
            | .b => .a
          armed := false, swapFrame := s.link.frame + 1 }
      else s.channels[ch]) ∧
    ((∃ ch : Chan, s.channels[ch].armed = true) →
      t.host = { s.host with flags := { s.host.flags with swapDone := true } }) ∧
    ((∀ ch : Chan, s.channels[ch].armed = false) → t.host = s.host) ∧
    t = { s with
      channels := t.channels, host := t.host
      link := ({ s.link with frame := s.link.frame + 1 } : Link).joined (requestSlot w (.done
        { disposition := .frameAck, corrected := false, clamped := false
          result := s.link.frame + 1 })) }

/-- A LOOKUP on an ACTIVE channel makes a WAITING slot with SAMPLE and the snapshot of the active bank
and output settings as they stand, which an IDLE engine takes at once; no context changes, and the bound
range is protected from then on (R58, R44, R69); claims are then granted as at any event. -/
def Obligations.LookupOnAnActiveChannelBindsItsBank : Prop :=
  ∀ (s : State) (w : BitVec 29) (ch : Chan), s.linkOpen = true → s.stallFollowsOffer →
    s.noGrantOwed → onesCount w % 2 = 0 → w.extractLsb' 26 2 = 0 →
    (w.extractLsb' 22 4).toNat = ch.val → s.channels[ch].state = .active →
    let c := s.channels[ch]
    let b := match c.activeBank with
      | .a => c.bankA
      | .b => c.bankB
    exec (.requestAcceptance w) s = .next
      ({ s with
        link := s.link.joined (requestSlot w (.waiting (w.extractLsb' 0 16)
          { bank := b, inOffset := c.inOffset, clampLo := c.clampLo, clampHi := c.clampHi
            policy := c.policy, substitute := c.substitute })) } : State).takeSlot.settle ∧
    ∀ t, exec (.requestAcceptance w) s = .next t →
      t.channels = s.channels ∧ ∀ a : Nat, b.base.toNat ≤ a → a ≤ b.base.toNat + 2 ^ b.order.toNat →
        t.isProtected a = true

/-- An IDLE engine takes the WAITING slot nearest the head: offset step, index step and a fresh progress
record (R69 to R71), the index being the top k bits of x and the fraction the rest; with none waiting,
or the engine at work, nothing is taken. -/
def Obligations.EngineTakesTheWaitingSlotNearestTheHead : Prop :=
  ∀ s : State,
    (∀ pre sl post sample snap, s.engine = .idle → s.link.queue = pre ++ sl :: post →
      (∀ x ∈ pre, x.isWaiting = false) → sl.phase = .waiting sample snap →
      let x := if snap.inOffset.toNat ≤ sample.toNat then sample.toNat - snap.inOffset.toNat else 0
      s.takeSlot = { s with
        link := { s.link with
          queue := pre ++ { sl with phase := .reading sample snap } :: post }
        engine := .firstRead
          { x := x
            offsetClamped := decide (sample.toNat < snap.inOffset.toNat)
            index := x / 2 ^ (16 - snap.bank.order.toNat)
            fraction := x % 2 ^ (16 - snap.bank.order.toNat)
            anyCorrected := false, anyFaulty := false } } ∧
      (snap.bank.order.toNat ≤ 10 →
        x / 2 ^ (16 - snap.bank.order.toNat) = x >>> (16 - snap.bank.order.toNat) ∧
        x / 2 ^ (16 - snap.bank.order.toNat) < 2 ^ snap.bank.order.toNat ∧
        x % 2 ^ (16 - snap.bank.order.toNat) < 2 ^ (16 - snap.bank.order.toNat) ∧
        snap.bank.half = 2 ^ (15 - snap.bank.order.toNat) ∧
        2 * snap.bank.half = 2 ^ (16 - snap.bank.order.toNat))) ∧
    (s.engine ≠ .idle ∨ (∀ x ∈ s.link.queue, x.isWaiting = false) → s.takeSlot = s)

/-- DELIVERY hands the requester the head's response word, the slot leaves the queue, and a DONE head
behind it is offered with the stall timer at 0; while nothing is offered RS_TAKE transfers nothing (R51,
R60); the model records the word handed over (log entry 5). The response word carries the echoed fields,
DISPOSITION, CORRECTED, CLAMPED and RESULT at their bits, and bit 34 makes the number of ones even (R48,
R180, Table 11-6); the nine codes are those of Table 4-3. -/
def Obligations.DeliveryHandsOverTheHeadOnce : Prop :=
  (∀ s : State,
     (∀ sl rest r, s.link.queue = sl :: rest → sl.phase = .done r →
       (s.noGrantOwed → exec .delivery s = .next { s with
         link := { s.link with
           queue := rest
           stall := if headDone rest then some { elapsed := 0, expired := false } else none }
         outputs := { s.outputs with delivered := responseWord sl r } }) ∧
       s.rsOffer = true ∧ s.rsWord = responseWord sl r) ∧
     (headDone s.link.queue = false →
       (s.noGrantOwed → exec .delivery s = .next s) ∧ s.rsOffer = false ∧ s.rsWord = 0)) ∧
  (∀ (sl : Slot) (r : Response),
     let w := responseWord sl r
     onesCount w % 2 = 0 ∧ w.extractLsb' 32 2 = sl.kind ∧
     (w.extractLsb' 28 4).toNat = sl.channel.val ∧ w.extractLsb' 22 6 = sl.tag ∧
     (w.extractLsb' 18 4).toNat =
       (match r.disposition with
       | .ok => 0
       | .substituted => 1
       | .held => 2
       | .rejected => 3
       | .suspended => 4
       | .channelOff => 5
       | .frameAck => 6
       | .linkParity => 7
       | .badKind => 8) ∧
     w.getLsbD 17 = r.corrected ∧
     w.getLsbD 16 = r.clamped ∧ w.extractLsb' 0 16 = r.result)

/-- LINK_RST (R63, R64, R86): at its assertion every slot goes, the stall timer stops, the frame counter
and the contexts stay; a granted lookup read runs on in DRAINING with its bank still bound; with none
granted the engine drops its slot and reports it if its first read was faulty; other claims are then
granted as at any event. Its release only lets the link open. -/
def Obligations.LinkResetDiscardsEverySlot : Prop :=
  ∀ s : State, s.noGrantOwed →
    exec .linkRstRelease s = .next { s with link := { s.link with linkRst := false } } ∧
    (s.engineAgrees →
      (s.engine.evaluating = false → exec .linkRstAssert s = .next
        ({ s with link := { s.link with queue := [], stall := none, linkRst := true } }
          : State).settle) ∧
      (∀ r, s.engine.evaluating = true → s.store.access = some (.read .lookup r .wanted) →
        ∃ ch snap f, readingSlot s.link.queue = some (ch, snap) ∧
          ((∃ p, s.engine = .firstRead p ∧ p.anyFaulty = f) ∨
            ∃ p e, s.engine = .secondRead p e ∧ p.anyFaulty = f) ∧
          exec .linkRstAssert s = .next { s with
            store := { s.store with access := some (.read .lookup r .stale) }
            engine := .draining ch snap.bank f
            link := { s.link with queue := [], stall := none, linkRst := true } }) ∧
      (∀ p ch snap, s.engine = .firstRead p ∨ (∃ e, s.engine = .secondRead p e) →
        readingSlot s.link.queue = some (ch, snap) → (∀ r i, s.store.access ≠ some (.read .lookup r i)) →
        let q := if p.anyFaulty = true then s.reportFaulty ch else s
        exec .linkRstAssert s = .next ({ q with
          engine := .idle, link := { s.link with queue := [], stall := none, linkRst := true } }
          : State).settle))

/-! ## The timers (4.6, 9.3) -/

/-- The stall timer expires once for a head, LINK_TIMEOUT being nonzero: LINK_STALL is set and the
response stays offered (R61); one that is stopped, off or already expired does not.
PATROL_INTERVAL_EXPIRY starts a step at the pointer with a fresh record, CLAIMING (R144, R147); a patrol
that is not PACING has no expiry (log entry 4). MODEL'S CHOICE (log entry 6): the ticks that an expiry
waits for pass for the other timer too, which expires with it if it reaches its own setting (R61, R144).
A new setting acts against the time already counted: PATROL_INTERVAL at or below a pacing patrol's
elapsed time starts a step at the write (R145), and a nonzero LINK_TIMEOUT at or below the offered head's
expires the stall timer at the write, once for that head (R62). -/
def Obligations.TimersExpireAtTheirSettings : Prop :=
  (∀ s : State, s.noGrantOwed →
     (∀ n, s.link.stall = some { elapsed := n, expired := false } → s.link.timeout ≠ 0 →
       n ≤ s.link.timeout.toNat →
       let left := s.link.timeout.toNat - n
       let expired : State := { s with
         link := { s.link with
           stall := some { elapsed := s.link.timeout.toNat, expired := true } }
         host := { s.host with flags := { s.host.flags with linkStall := true } } }
       (s.patrol.timer = none → exec .stallTimerExpiry s = .next expired.settle) ∧
       (∀ e, s.patrol.phase = .pacing → s.patrol.timer = some e →
         (e + left < s.patrol.interval.toNat → exec .stallTimerExpiry s = .next
           ({ expired with patrol := { s.patrol with timer := some (e + left) } } : State).settle) ∧
         (s.patrol.interval.toNat ≤ e + left → exec .stallTimerExpiry s = .next
           ({ expired with patrol := { s.patrol with
             phase := .claiming, timer := none
             step := some
               { address := s.patrol.pointer, outcome := none, data := 0, cancel := false
                 retiring := false } } } : State).settle))) ∧
     (s.link.stall = none ∨ s.link.timeout = 0 ∨ s.link.stall.any (·.expired) = true →
       exec .stallTimerExpiry s = .next s)) ∧
  (∀ s : State, s.noGrantOwed →
     (∀ n, s.patrol.phase = .pacing → s.patrol.timer = some n →
       let left := s.patrol.interval.toNat - n
       let due (u : StallTimer) : Bool := decide (s.link.timeout ≠ 0) &&
         decide (s.link.timeout.toNat ≤ min 65535 (u.elapsed + left))
       exec .patrolIntervalExpiry s = .next ({ s with
         link := { s.link with
           stall := s.link.stall.map (fun u =>
             { elapsed := min 65535 (u.elapsed + left), expired := u.expired || due u }) }
         host := { s.host with flags := { s.host.flags with
           linkStall := s.host.flags.linkStall || s.link.stall.any (fun u => !u.expired && due u) } }
         patrol := { s.patrol with
           phase := .claiming, timer := none
           step := some
             { address := s.patrol.pointer, outcome := none, data := 0, cancel := false
               retiring := false } } } : State).settle) ∧
     (s.patrol.phase ≠ .pacing → exec .patrolIntervalExpiry s = .next s)) ∧
  (∀ (s : State) (v : Data), s.takesHostAccess →
     (∀ n, s.patrol.phase = .pacing → s.patrol.timer = some n → v.toNat ≤ n →
       exec (.patrolIntervalWrite v) s = .next ({ s with patrol := { s.patrol with
         interval := v, phase := .claiming, timer := none
         step := some
           { address := s.patrol.pointer, outcome := none, data := 0, cancel := false
             retiring := false } } } : State).settle) ∧
     ((s.patrol.phase = .pacing → ∀ n, s.patrol.timer = some n → n < v.toNat) →
       exec (.patrolIntervalWrite v) s = .next
         ({ s with patrol := { s.patrol with interval := v } } : State).settle) ∧
     (∀ u, s.link.stall = some u → u.expired = false → v ≠ 0 → v.toNat ≤ u.elapsed →
       exec (.linkTimeoutWrite v) s = .next { s with
         link := { s.link with timeout := v, stall := some { u with expired := true } }
         host := { s.host with flags := { s.host.flags with linkStall := true } } }) ∧
     ((∀ u, s.link.stall = some u → u.expired = true ∨ v = 0 ∨ u.elapsed < v.toNat) →
       exec (.linkTimeoutWrite v) s = .next { s with link := { s.link with timeout := v } }))

/-! ## Lookup evaluation (chapter 5) and the reports to the channels (3.6) -/

/-- The first read of a LINEAR slot files its detection, is noted, and is followed by the second read;
nothing is answered yet (R74, R83); the second read's claim is granted or waits as any claim does, or
waits for the reset that comes together with this completion (R87, log entry 21). The last read of a slot
(the one of a NEAREST slot, the second of a LINEAR one) files its detection and completes the lookup
(R78, R80 to R84): with no faulty read OK with the clamped value, which LAST_GOOD takes; otherwise the
disposition and result of the snapshot's POLICY, and a counting report. The slot is DONE in its place,
and the engine takes the next. -/
def Obligations.LookupReadsLeadToTheResponse : Prop :=
  (∀ (s : State) (r : ReadResult) (i : Interest) (p : Progress) (ch : Chan) (snap : Snapshot),
     s.store.access = some (.read .lookup r i) → s.engine = .firstRead p →
     readingSlot s.link.queue = some (ch, snap) → snap.bank.mode = .linear →
     exec .lookupReadCompletion s = .next
       (({ s.storeFreed.fileRead r .lookup (some ch) with
         engine := .secondRead
           { p with
             anyCorrected := p.anyCorrected || decide (r.outcome = .corrected)
             anyFaulty := p.anyFaulty ||
               decide (r.outcome = .uncorrectable ∨ r.outcome = .poisoned) }
           { data := r.data, outcome := r.outcome } } : State).settleTogether .lookup)) ∧
  (∀ (s : State) (r : ReadResult) (i : Interest) (p : Progress) (pre post : List Slot) (sl : Slot)
     (sample : Data) (snap : Snapshot) (y : Int),
     s.store.access = some (.read .lookup r i) → s.stallFollowsOffer →
     s.link.queue = pre ++ sl :: post → (∀ x ∈ pre, x.isReading = false) →
     sl.phase = .reading sample snap →
     (s.engine = .firstRead p ∧ snap.bank.mode = .nearest ∧ y = r.data.toInt ∨
       ∃ e, s.engine = .secondRead p e ∧
         y = e.data.toInt + ((r.data.toInt - e.data.toInt) * p.fraction +
           2 ^ (15 - snap.bank.order.toNat)) / 2 ^ (16 - snap.bank.order.toNat)) →
     let f := s.storeFreed.fileRead r .lookup (some sl.channel)
     let c := s.channels[sl.channel]
     let faulty := p.anyFaulty || decide (r.outcome = .uncorrectable ∨ r.outcome = .poisoned)
     let corrected := p.anyCorrected || decide (r.outcome = .corrected)
     let acted := decide (y < snap.clampLo.toInt ∨ snap.clampHi.toInt < y)
     let value : Data :=
       if y < snap.clampLo.toInt then snap.clampLo
       else if snap.clampHi.toInt < y then snap.clampHi else BitVec.ofInt 16 y
     let answer : Response :=
       if faulty = true then
         match snap.policy with
         | .holdLast =>
           { disposition := .held, corrected := false, clamped := p.offsetClamped
             result := c.lastGood }
         | .substitute =>
           { disposition := .substituted, corrected := false, clamped := p.offsetClamped
             result := snap.substitute }
         | .reject =>
           { disposition := .rejected, corrected := false, clamped := p.offsetClamped, result := 0 }
       else
         { disposition := .ok, corrected := corrected, clamped := p.offsetClamped || acted
           result := value }
     let reported :=
       if faulty = true then f.reportFaulty sl.channel
       else f.withChan sl.channel { c with lastGood := value }
     exec .lookupReadCompletion s = .next
       ({ reported with
         engine := .idle
         link := { s.link with
           queue := pre ++ { sl with phase := .done answer } :: post
           stall := if pre = [] then some { elapsed := 0, expired := false } else s.link.stall } }
         : State).takeSlot.settle)

/-- The interpolated value is exact (R77): a + d·f/F rounded to the nearest integer, a half-way value
upward; it lies between the two entries, is the first at f = 0 and for equal entries, and is then
limited by the output clamp. The clamp keeps every value inside a snapshot's limits, tells when it has
acted, and applies to the OK disposition only (R79). -/
def Obligations.InterpolationRoundsToNearestAndIsClamped : Prop :=
  ∀ (snap : Snapshot) (x e : Data) (f : Nat), snap.wf →
    4 ≤ snap.bank.order.toNat → snap.bank.order.toNat ≤ 10 →
    f < 2 ^ (16 - snap.bank.order.toNat) →
    let F : Int := 2 ^ (16 - snap.bank.order.toNat)
    let a := x.toInt
    let d := e.toInt - x.toInt
    let y := interpolate snap.bank x e f
    (-65535 ≤ d ∧ d ≤ 65535) ∧
    y = a + (d * f + 2 ^ (15 - snap.bank.order.toNat)) / F ∧
    (2 * (d * f) - F < 2 * (F * (y - a)) ∧ 2 * (F * (y - a)) ≤ 2 * (d * f) + F) ∧
    min x.toInt e.toInt ≤ y ∧ y ≤ max x.toInt e.toInt ∧ (-32768 ≤ y ∧ y ≤ 32767) ∧
    (f = 0 → y = a) ∧ (x = e → y = a) ∧
    (∀ (p : Progress) (lastGood : Data),
      (p.anyFaulty = false → lookupResponse snap p y lastGood =
        { disposition := .ok, corrected := p.anyCorrected
          clamped := p.offsetClamped || (clampOutput snap y).2, result := (clampOutput snap y).1 }) ∧
      (p.anyFaulty = true → lookupResponse snap p y lastGood =
        match snap.policy with
        | .holdLast =>
          { disposition := .held, corrected := false, clamped := p.offsetClamped
            result := lastGood }
        | .substitute =>
          { disposition := .substituted, corrected := false, clamped := p.offsetClamped
            result := snap.substitute }
        | .reject =>
          { disposition := .rejected, corrected := false, clamped := p.offsetClamped
            result := 0 })) ∧
    ∀ z : Int, -32768 ≤ z → z ≤ 32767 →
      let v := (clampOutput snap z).1.toInt
      (z < snap.clampLo.toInt → v = snap.clampLo.toInt ∧ (clampOutput snap z).2 = true) ∧
      (snap.clampHi.toInt < z → v = snap.clampHi.toInt ∧ (clampOutput snap z).2 = true) ∧
      (snap.clampLo.toInt ≤ z → z ≤ snap.clampHi.toInt →
        v = z ∧ (clampOutput snap z).2 = false) ∧
      snap.clampLo.toInt ≤ v ∧ v ≤ snap.clampHi.toInt

/-- Every read the lookup engine asks for lies inside the bank range bound to its slot (R58, R72), in
every state whose progress record is in range; and every step keeps it so. -/
def Obligations.LookupReadsStayInTheBoundRange : Prop :=
  (∀ s : State, s.contextsWf → s.engineInRange → ∀ a, s.lookupWants = some a →
    ∃ ch snap, readingSlot s.link.queue = some (ch, snap) ∧
      snap.bank.base.toNat ≤ a.toNat ∧
      a.toNat ≤ snap.bank.base.toNat + 2 ^ snap.bank.order.toNat) ∧
  ∀ s t : State, s.contextsWf → s.engineAgrees → s.engineInRange → step s = .next t →
    t.engineInRange

/-- A counting report (R39, R40): UNCORR_COUNT rises to 255 at most, whatever the STATE; an ACTIVE channel
whose count then reaches a nonzero SUSPEND_LIMIT is SUSPENDED, and the flag is set. The read of a slot
that a link reset discarded files its detection and reports the slot if a read of it was faulty; after a
soft reset it does neither; then the engine takes the next slot (R43, R64, R66, R86). -/
def Obligations.FaultyReadsAreReportedToTheirChannel : Prop :=
  (∀ (s : State) (ch : Chan),
     let c := s.channels[ch]
     let n := if c.uncorrCount = 255 then 255 else c.uncorrCount + 1
     let suspends := decide (c.suspendLimit ≠ 0 ∧ c.suspendLimit.toNat ≤ n.toNat ∧ c.state = .active)
     s.reportFaulty ch = { s with
       channels := s.channels.set ch { c with
         uncorrCount := n, state := if suspends = true then .suspended else c.state }
       host := { s.host with flags := { s.host.flags with
         suspended := s.host.flags.suspended || suspends } } }) ∧
  (∀ (s : State) (r : ReadResult) (i : Interest) (ch : Chan) (b : Bank) (f : Bool),
     s.store.access = some (.read .lookup r i) → s.engine = .draining ch b f →
     (i = .dropped → exec .drainedReadCompletion s = .next
       ({ s.storeFreed with engine := .idle } : State).takeSlot.settle) ∧
     (i ≠ .dropped →
       let q := ({ s.storeFreed with engine := .idle } : State).fileRead r .lookup (some ch)
       exec .drainedReadCompletion s = .next
         (if f = true ∨ r.outcome = .uncorrectable ∨ r.outcome = .poisoned then q.reportFaulty ch
           else q).takeSlot.settle))

/-! ## The error record queue (chapter 6) -/

/-- A completed read files at most one detection: none when CLEAN, and otherwise one of its outcome's
kind at its address and location (R10); and filing it is one of the four cases of Table 6-2, with the
COUNT handed back (R91 to R98). -/
def Obligations.FilingTakesTheFirstCaseThatHolds : Prop :=
  ∀ (s : State) (r : ReadResult) (src : Source) (ch : Option Chan),
    (r.outcome = .clean → s.fileRead r src ch = s ∧ s.filedCount r src ch = none) ∧
    ∀ kind : ErrorKind,
      r.outcome = .corrected ∧ kind = .corrected ∨
        r.outcome = .uncorrectable ∧ kind = .uncorrectable ∨
        r.outcome = .poisoned ∧ kind = .poisoned →
      let new : ErrorRecord :=
        { kind := kind, source := src, address := r.address, place := r.place
          syndrome := r.syndrome, channel := ch, count := 1, firstFrame := s.link.frame
          lastFrame := s.link.frame }
      let other (x : ErrorRecord) := ¬(x.address = r.address ∧ x.kind = kind)
      let loss := if s.errors.loss = 255 then 255 else s.errors.loss + 1
      let uncorr := s.host.flags.logUncorr || decide (kind ≠ .corrected)
      (∀ pre x post, s.errors.records = pre ++ x :: post → (∀ y ∈ pre, other y) →
        x.address = r.address → x.kind = kind →
        let n := if x.count = 255 then 255 else x.count + 1
        s.fileRead r src ch = { s with
          errors := { s.errors with
            records := pre ++ { x with count := n, lastFrame := s.link.frame } :: post }
          host := { s.host with flags := { s.host.flags with logUncorr := uncorr } } } ∧
        s.filedCount r src ch = some n) ∧
      ((∀ y ∈ s.errors.records, other y) → s.errors.records.length < 16 →
        s.fileRead r src ch = { s with
          errors := { s.errors with records := s.errors.records ++ [new] }
          host := { s.host with flags := { s.host.flags with logUncorr := uncorr } } } ∧
        s.filedCount r src ch = some 1) ∧
      (∀ pre x post, (∀ y ∈ s.errors.records, other y) → s.errors.records.length = 16 →
        kind ≠ .corrected → s.errors.records = pre ++ x :: post → x.kind = .corrected →
        (∀ y ∈ pre, y.kind ≠ .corrected) →
        s.fileRead r src ch = { s with
          errors := { records := pre ++ post ++ [new], loss := loss }
          host := { s.host with flags := { s.host.flags with
            logUncorr := uncorr, logLoss := true } } } ∧
        s.filedCount r src ch = some 1) ∧
      ((∀ y ∈ s.errors.records, other y) → s.errors.records.length = 16 →
        (kind = .corrected ∨ ∀ y ∈ s.errors.records, y.kind ≠ .corrected) →
        s.fileRead r src ch = { s with
          errors := { s.errors with loss := loss }
          host := { s.host with flags := { s.host.flags with
            logUncorr := uncorr, logLoss := true } } } ∧
        s.filedCount r src ch = none)

/-! ## The host table port (10.2) -/

/-- MODEL'S CHOICE (log entry 7). While READY stretches an access, no other host access takes place. -/
def Obligations.StretchedAccessHoldsTheBus : Prop :=
  ∀ (s : State) (v : Data) (sel : BitVec 5) (low : BitVec 8), s.host.stretch ≠ none →
    s.noGrantOwed → ∀ c ∈ ([.tablePointerWrite v, .tableDataRead, .tableDataWrite v, .tablePortStatusClear v,
      .intStatusWrite v, .intEnableWrite v, .winAddrWrite v, .winDataRead, .winDataWrite v,
      .timebaseWrite v, .patrolCtrlWrite v, .patrolIntervalWrite v, .linkCtrlWrite v,
      .linkTimeoutWrite v, .registerWrite sel v, .enable low, .disable low, .resume low, .arm low,
      .disarm low, .fill low, .verify low, .retire low, .abortJobs low, .popError low,
      .popCompletion low, .clearLoss low, .softReset low, .unknownCommand v] : List Instr),
      exec c s = .next s

/-- In START_UP the table port makes no access (R167): a TABLE_DATA read returns 0 at once, writes of
TABLE_DATA and TABLE_POINTER are dropped, the clear bit sets a count that is 0 already, and the
registers read as R167 says. -/
def Obligations.TablePortIsIdleInStartUp : Prop :=
  ∀ (s : State) (v : Data), s.store.device = .startUp → s.startUpQuiet → s.host.outcome = .starting →
    s.host.refusedCount = 0 → s.host.refusedAddress = 0 →
    exec .tableDataRead s = .next { s with outputs := { s.outputs with readData := 0 } } ∧
    exec (.tableDataWrite v) s = .next s ∧ exec (.tablePointerWrite v) s = .next s ∧
    exec (.tablePortStatusClear v) s = .next s ∧
    s.readRegister 0x10 = 5 ∧ s.readRegister 0x11 = 0 ∧
    s.readRegister 0x0E = s.host.pointer.setWidth 16

/-- The table port in RUNNING. TABLE_POINTER_WRITE: the pointer takes the low 13 bits and the holder is
PENDING for it; of the old pointer's prefetch, a granted read runs on with its data unwanted, and a
waiting claim is withdrawn, its wait count back at 0 (R160). TABLE_DATA_READ: a FULL holder's data is
returned at once, the pointer advances with wrap and its prefetch is PENDING; a PENDING or EMPTY holder
withholds READY, an EMPTY one starting the prefetch (R162). TABLE_DATA_WRITE: with no posted write
outstanding the value is posted to the pointer's address, the pointer advances with wrap, and the old
pointer's prefetch is discarded; behind an earlier posted write READY is withheld (R163). -/
def Obligations.TablePortAccessesFollowTheHolder : Prop :=
  (∀ (s : State) (v : Data), s.takesCommands →
     let h := { s.host with pointer := v.extractLsb' 0 13, holder := Holder.pending }
     (∀ r, s.store.access = some (.read .prefetch r .wanted) →
       exec (.tablePointerWrite v) s = .next
         ({ s with store := { s.store with access := some (.read .prefetch r .stale) }, host := h }
           : State).settle) ∧
     (s.hostClaim = some .prefetch → exec (.tablePointerWrite v) s = .next
       ({ s with store := { s.store with hostWait := 0 }, host := h } : State).settle) ∧
     ((∀ r, s.store.access ≠ some (.read .prefetch r .wanted)) → s.hostClaim ≠ some .prefetch →
       exec (.tablePointerWrite v) s = .next ({ s with host := h } : State).settle)) ∧
  (∀ s : State, s.takesCommands →
     (∀ d o, s.host.holder = .full d o → exec .tableDataRead s = .next
       ({ s with
         host := { s.host with pointer := s.host.pointer + 1, holder := .pending }
         outputs := { s.outputs with readData := d } } : State).settle) ∧
     (s.host.holder = .pending →
       exec .tableDataRead s = .next { s with host := { s.host with stretch := some .read } }) ∧
     (s.host.holder = .empty → exec .tableDataRead s = .next
       ({ s with host := { s.host with holder := .pending, stretch := some .read } }
         : State).settle)) ∧
  (∀ (s : State) (v : Data), s.takesCommands →
     let h := { s.host with
       pointer := s.host.pointer + 1, holder := Holder.pending
       posted := some { address := s.host.pointer, data := v } }
     (s.host.posted.isSome = true → exec (.tableDataWrite v) s = .next
       { s with host := { s.host with stretch := some (.write v) } }) ∧
     (s.host.posted = none →
       (∀ r, s.store.access = some (.read .prefetch r .wanted) →
         exec (.tableDataWrite v) s = .next
           ({ s with
             store := { s.store with access := some (.read .prefetch r .stale) }, host := h }
             : State).settle) ∧
       (s.hostClaim = some .prefetch → exec (.tableDataWrite v) s = .next
         ({ s with store := { s.store with hostWait := 0 }, host := h } : State).settle) ∧
       ((∀ r, s.store.access ≠ some (.read .prefetch r .wanted)) → s.hostClaim ≠ some .prefetch →
         exec (.tableDataWrite v) s = .next ({ s with host := h } : State).settle)))

/-- PREFETCH_COMPLETION: the detection is filed with source HOST and PREFETCH_OUTCOME shows the outcome; a
prefetch still wanted fills the holder, or ends a stretched read with its data; one that a pointer change
discarded leaves the holder; one that a soft reset found granted does nothing but free the store (R161,
R162, R177). POSTED_WRITE_COMPLETION: the posted write is gone; a stretched TABLE_DATA write is posted in
its place to the pointer's address, the pointer advancing, and its stretch ends (R163, R164). -/
def Obligations.TablePortCompletionsEndStretches : Prop :=
  (∀ (s : State) (r : ReadResult) (i : Interest), s.store.access = some (.read .prefetch r i) →
     let f := s.storeFreed.fileRead r .host none
     let shown : PrefetchOutcome :=
       match r.outcome with
       | .clean => .clean
       | .corrected => .corrected
       | .uncorrectable => .uncorrectable
       | .poisoned => .poisoned
     (i = .wanted → s.host.stretch ≠ some .read → exec .prefetchCompletion s = .next
       ({ f with host := { f.host with outcome := shown, holder := .full r.data r.outcome } }
         : State).settle) ∧
     (i = .wanted → s.host.stretch = some .read → exec .prefetchCompletion s = .next
       ({ f with
         host := { f.host with
           outcome := shown, pointer := s.host.pointer + 1, holder := .pending, stretch := none }
         outputs := { s.outputs with readData := r.data } } : State).settle) ∧
     (i = .stale → exec .prefetchCompletion s = .next
       ({ f with host := { f.host with outcome := shown } } : State).settle) ∧
     (i = .dropped → exec .prefetchCompletion s = .next s.storeFreed.settle)) ∧
  (∀ (s : State) (key : Option Nat) (i : Interest), s.store.access = some (.write .posted key i) →
     ((∀ v, s.host.stretch ≠ some (.write v)) → exec .postedWriteCompletion s = .next
       ({ s.storeFreed with host := { s.host with posted := none } } : State).settle) ∧
     (∀ v, s.host.stretch = some (.write v) → s.host.posted.isSome = true →
       exec .postedWriteCompletion s = .next
         ({ s.storeFreed with host := { s.host with
           pointer := s.host.pointer + 1, holder := .pending, stretch := none
           posted := some { address := s.host.pointer, data := v } } } : State).settle))

/-! ## The other host registers (10.1, 10.3, 10.5, 10.6) -/

/-- INT_STATUS, INT_ENABLE and INT# (R174, R175): a write of INT_STATUS clears the sticky flags written
as 1 and no other, level flags never; the nine sticky flags stand at their bits of Table 11-2 and the two
level flags follow their queues; a write of INT_ENABLE sets its eleven bits; and INT# is asserted while a
set flag is enabled. -/
def Obligations.InterruptFlagsAreClearedByOnes : Prop :=
  ∀ (s : State) (v : Data),
    (s.takesHostAccess →
      (∃ t, exec (.intStatusWrite v) s = .next t ∧
        (∀ i : Fin 11, t.intStatus.getLsbD i =
          if i = 1 ∨ i = 4 then s.intStatus.getLsbD i
          else s.intStatus.getLsbD i && !v.getLsbD i) ∧
        t = { s with host := { s.host with flags := t.host.flags } }) ∧
      exec (.intEnableWrite v) s = .next
        { s with host := { s.host with intEnable := v.extractLsb' 0 11 } }) ∧
    (let f := s.host.flags
      let bit (i : Nat) := s.intStatus.getLsbD i
      bit 0 = f.startDone ∧ bit 2 = f.logUncorr ∧ bit 3 = f.logLoss ∧ bit 5 = f.swapDone ∧
        bit 6 = f.suspended ∧ bit 7 = f.linkError ∧ bit 8 = f.linkStall ∧
        bit 9 = f.writeRefused ∧ bit 10 = f.sparesExhausted) ∧
    s.intStatus.getLsbD 1 = decide (s.errors.records ≠ []) ∧
    s.intStatus.getLsbD 4 = decide (s.maint.completions ≠ []) ∧
    s.readRegister 2 = s.intStatus.setWidth 16 ∧ s.readRegister 3 = s.host.intEnable.setWidth 16 ∧
    (s.intAsserted = true ↔
      ∃ i : Fin 11, s.intStatus.getLsbD i = true ∧ s.host.intEnable.getLsbD i = true)

/-- WIN_ADDR and reads of WIN_DATA (R169, R170): a write selects the window and the index modulo its
size, and touches nothing else; a read returns the field that the window shows for the index, and the
index advances, wrapping at the window's size. -/
def Obligations.WindowAddressWrapsAtItsSize : Prop :=
  ∀ (s : State) (v : Data),
    (s.takesHostAccess →
      (∃ t, exec (.winAddrWrite v) s = .next t ∧
        t.host.window = ([Window.context, .errorHead, .completionHead, .spareMap])[v.toNat / 2 ^ 14]'(by
          have := v.isLt
          simp
          omega) ∧
        t.host.index.toNat = v.toNat % 256 %
          (match t.host.window with
            | .context => 256
            | .errorHead => 8
            | .completionHead => 8
            | .spareMap => 32) ∧
        t = { s with host := { s.host with window := t.host.window, index := t.host.index } }) ∧
      (∃ t, exec .winDataRead s = .next t ∧ t.outputs.readData = s.readRegister 0x13 ∧
        t.host.index.toNat = (s.host.index.toNat + 1) %
          (match s.host.window with
            | .context => 256
            | .errorHead => 8
            | .completionHead => 8
            | .spareMap => 32) ∧
        t = { s with
          host := { s.host with index := t.host.index }
          outputs := { s.outputs with readData := t.outputs.readData } })) ∧
    (s.readRegister 0x12).toNat = s.host.index.toNat + 16384 *
      (match s.host.window with
      | .context => 0
      | .errorHead => 1
      | .completionHead => 2
      | .spareMap => 3)

/-- What WIN_DATA shows for an index of each window (R25, R99, R110, R133; Tables 11-7 to 11-10): the
field of the channel's context, of the head error record, of the head completion record, or of the spare
slot, in its bits, every other bit 0; an empty queue shows 0. -/
def Obligations.WindowsShowTheirRecords : Prop :=
  ∀ s : State,
    let w := s.readRegister 0x13
    let i := s.host.index.toNat
    (∀ (ch : Chan) (f : Nat), s.host.window = .context → f < 16 → i = ch.val * 16 + f →
      let c := s.channels[ch]
      let order (b : Bank) : Nat := b.order.toNat + (match b.mode with
        | .nearest => 0
        | .linear => 256)
      w.toNat =
        match f with
        | 0 => (match c.state with
            | .disabled => 0
            | .active => 1
            | .suspended => 2) + (if c.armed = true then 16 else 0) +
          (match c.activeBank with
            | .a => 0
            | .b => 256)
        | 1 => c.bankA.base.toNat
        | 2 => order c.bankA
        | 3 => c.bankB.base.toNat
        | 4 => order c.bankB
        | 5 => c.inOffset.toNat
        | 6 => c.clampLo.toNat
        | 7 => c.clampHi.toNat
        | 8 => (match c.policy with
            | .holdLast => 0
            | .substitute => 1
            | .reject => 2)
        | 9 => c.substitute.toNat
        | 10 => c.suspendLimit.toNat
        | 11 => c.uncorrCount.toNat
        | 12 => c.lastGood.toNat
        | 13 => c.swapFrame.toNat
        | _ => 0) ∧
    (s.host.window = .errorHead → s.errors.records = [] → w = 0) ∧
    (∀ r rest, s.host.window = .errorHead → s.errors.records = r :: rest → i < 8 →
      w.toNat =
        match i with
        | 0 => (match r.kind with
            | .corrected => 1
            | .uncorrectable => 2
            | .poisoned => 3) +
          (match r.source with
            | .lookup => 0
            | .host => 16
            | .patrol => 32
            | .job => 48)
        | 1 => r.address.toNat
        | 2 => (match r.place with
            | .main _ => 0
            | .spare k => 16 + k.val)
        | 3 => r.syndrome.toNat
        | 4 => (match r.channel with
            | some ch => ch.val
            | none => 65535)
        | 5 => r.count.toNat
        | 6 => r.firstFrame.toNat
        | _ => r.lastFrame.toNat) ∧
    (s.host.window = .completionHead → s.maint.completions = [] → w = 0) ∧
    (∀ r rest, s.host.window = .completionHead → s.maint.completions = r :: rest → i < 8 →
      w.toNat =
        match i with
        | 0 => r.id.toNat
        | 1 => (match r.kind with
            | .fill => 1
            | .verify => 2
            | .retire => 3)
        | 2 => (match r.outcome with
            | .done => 0
            | .aborted => 1
            | .noSpare => 2)
        | 3 => r.start.toNat
        | 4 => r.wordsDone % 65536
        | 5 => r.correctedFound % 65536
        | 6 => r.uncorrFound % 65536
        | _ => (match r.slot with
            | some k => k.val
            | none => 65535)) ∧
    (∀ k : SlotNo, s.host.window = .spareMap →
      (i = k.val * 2 → w.toNat = (match s.sparing.slots[k].state with
        | .free => 0
        | .mapped => 1
        | .defective => 2) + (if s.sparing.slots[k].poison = true then 16 else 0)) ∧
      (i = k.val * 2 + 1 → s.sparing.slots[k].state ≠ .mapped → w = 0) ∧
      (i = k.val * 2 + 1 → s.sparing.wf → ∀ e ∈ s.sparing.entries, e.slot = k →
        w.toNat = e.address.toNat))

/-- WIN_DATA_WRITE (R26 to R28, R100, R110, R133, R170, R181): WIN_STATUS takes the first outcome that
applies, the field of the context changes only with OK, and the index advances. Here the CONTEXT window
shows field `f` of channel `ch`. -/
def Obligations.ContextWritesAreCheckedInOrder : Prop :=
  ∀ (s : State) (v : Data) (ch : Chan) (f : Nat), s.takesHostAccess → s.contextsWf → f < 16 →
    let next := BitVec.ofNat 8 ((s.host.index.toNat + 1) % s.host.window.size)
    let done (o : WinOutcome) (c : Context) : Prop := exec (.winDataWrite v) s = .next
      { s.withChan ch c with host := { s.host with winStatus := o, index := next } }
    let c := s.channels[ch]
    let live := c.state ≠ .disabled
    let locked (n : BankName) := n = c.activeBank ∧ live ∨ n ≠ c.activeBank ∧ c.armed = true
    let base := v.toNat % 2 ^ 13
    let order := v.toNat % 16
    let mode : Mode := if v.getLsbD 8 then .linear else .nearest
    (s.host.window ≠ .context → exec (.winDataWrite v) s = .next
      { s with host := { s.host with winStatus := .readOnly, index := next } }) ∧
    (s.host.window = .context → s.host.index.toNat = ch.val * 16 + f →
      (f = 0 ∨ 11 ≤ f → done .readOnly c) ∧
      (f = 1 → (locked .a → done .locked c) ∧
        (¬locked .a → base + 2 ^ c.bankA.order.toNat ≤ 8191 →
          done .ok { c with bankA := { c.bankA with base := v.extractLsb' 0 13 } }) ∧
        (¬locked .a → 8191 < base + 2 ^ c.bankA.order.toNat → done .badValue c)) ∧
      (f = 2 → (locked .a → done .locked c) ∧
        (¬locked .a → 4 ≤ order → order ≤ 10 → c.bankA.base.toNat + 2 ^ order ≤ 8191 →
          done .ok { c with
            bankA := { c.bankA with order := v.extractLsb' 0 4, mode := mode } }) ∧
        (¬locked .a → order < 4 ∨ 10 < order ∨ 8191 < c.bankA.base.toNat + 2 ^ order →
          done .badValue c)) ∧
      (f = 3 → (locked .b → done .locked c) ∧
        (¬locked .b → base + 2 ^ c.bankB.order.toNat ≤ 8191 →
          done .ok { c with bankB := { c.bankB with base := v.extractLsb' 0 13 } }) ∧
        (¬locked .b → 8191 < base + 2 ^ c.bankB.order.toNat → done .badValue c)) ∧
      (f = 4 → (locked .b → done .locked c) ∧
        (¬locked .b → 4 ≤ order → order ≤ 10 → c.bankB.base.toNat + 2 ^ order ≤ 8191 →
          done .ok { c with
            bankB := { c.bankB with order := v.extractLsb' 0 4, mode := mode } }) ∧
        (¬locked .b → order < 4 ∨ 10 < order ∨ 8191 < c.bankB.base.toNat + 2 ^ order →
          done .badValue c)) ∧
      (f = 5 → done .ok { c with inOffset := v }) ∧
      (f = 6 → if c.clampHi.toInt < v.toInt then done .badValue c
        else done .ok { c with clampLo := v }) ∧
      (f = 7 → if v.toInt < c.clampLo.toInt then done .badValue c
        else done .ok { c with clampHi := v }) ∧
      (f = 8 → (v.toNat % 4 = 0 → done .ok { c with policy := .holdLast }) ∧
        (v.toNat % 4 = 1 → done .ok { c with policy := .substitute }) ∧
        (v.toNat % 4 = 2 → done .ok { c with policy := .reject }) ∧
        (v.toNat % 4 = 3 → done .badValue c)) ∧
      (f = 9 → done .ok { c with substitute := v }) ∧
      (f = 10 → done .ok { c with suspendLimit := v.extractLsb' 0 8 }))

/-- TIMEBASE takes bits 6–0 within 8–100 and keeps its value otherwise (R173, R178); LINK_CTRL takes the
link enable alone (R50); JOB_ARG_A, JOB_ARG_B and JOB_ARG_C take the word, and a write of a read-only
register or an empty offset is ignored (R156). TABLE_PORT_STATUS_CLEAR acts on bit 7 alone: with it 1
REFUSED_COUNT becomes 0 and nothing else changes; with it 0 nothing changes (R165, R178). The selects of
the other registers are the writes that have rows of their own (Table 11-1); a REGISTER_WRITE with such a
select is no command of the table, and what the model answers it is its choice (log entry 17). -/
def Obligations.PlainRegisterWritesSetTheirField : Prop :=
  (∀ (s : State) (v : Data) (sel : BitVec 5), s.takesHostAccess →
     (8 ≤ v.toNat % 128 → v.toNat % 128 ≤ 100 → exec (.timebaseWrite v) s = .next
       { s with host := { s.host with timebase := v.extractLsb' 0 7 } }) ∧
     (v.toNat % 128 < 8 ∨ 100 < v.toNat % 128 → exec (.timebaseWrite v) s = .next s) ∧
     exec (.linkCtrlWrite v) s = .next { s with link := { s.link with enable := v.getLsbD 0 } } ∧
     exec (.registerWrite 0x15 v) s = .next { s with maint := { s.maint with argA := v } } ∧
     exec (.registerWrite 0x16 v) s = .next { s with maint := { s.maint with argB := v } } ∧
     exec (.registerWrite 0x17 v) s = .next { s with maint := { s.maint with argC := v } } ∧
     ((Instr.registerWrite sel v).wellFormed = true → sel ∉ ([0x15, 0x16, 0x17] : List (BitVec 5)) →
       exec (.registerWrite sel v) s = .next s) ∧
     ∀ e ∈ ([(0x02, .intStatusWrite v), (0x03, .intEnableWrite v), (0x06, .timebaseWrite v),
         (0x07, .patrolCtrlWrite v), (0x08, .patrolIntervalWrite v), (0x0B, .linkCtrlWrite v),
         (0x0C, .linkTimeoutWrite v), (0x0E, .tablePointerWrite v), (0x0F, .tableDataWrite v),
         (0x10, .tablePortStatusClear v), (0x12, .winAddrWrite v), (0x13, .winDataWrite v)] :
         List (BitVec 5 × Instr)),
       (Instr.registerWrite e.1 v).wellFormed = false ∧ exec (.registerWrite e.1 v) s = exec e.2 s) ∧
  (∀ (s : State) (v : Data), s.takesHostAccess → exec (.tablePortStatusClear v) s = .next
     (if v.getLsbD 7 = true then { s with host := { s.host with refusedCount := 0 } } else s))

/-- PATROL_CTRL (R14, R141, R144, R154): ENABLE and RETIRE_LIMIT take the values written, MAINT_SHARE
only one of 1–16. In START_UP and during a step nothing else changes; set while OFF, ENABLE starts the
patrol; cleared while PACING or YIELDING, it stops it with the timer's time discarded. -/
def Obligations.PatrolControlStartsAndStopsThePatrol : Prop :=
  ∀ (s : State) (v : Data), s.takesHostAccess →
    let share := v.toNat / 256 % 32
    let p := { s.patrol with
      enable := v.getLsbD 0, retireLimit := v.extractLsb' 4 4
      share := if 1 ≤ share ∧ share ≤ 16 then BitVec.ofNat 5 share else s.patrol.share }
    let done (q : Patrol) : Prop :=
      exec (.patrolCtrlWrite v) s = .next ({ s with patrol := q } : State).settle
    (s.store.device = .startUp ∨ s.patrol.phase = .claiming ∨ s.patrol.phase = .checking ∨
      s.patrol.phase = .repairing → done p) ∧
    (s.store.device = .running →
      (s.patrol.phase = .pacing ∨ s.patrol.phase = .yielding →
        (v.getLsbD 0 = true → done p) ∧
        (v.getLsbD 0 = false → done { p with phase := .off, timer := none })) ∧
      (s.patrol.phase = .off →
        (v.getLsbD 0 = false → done { p with phase := .off, timer := none }) ∧
        (v.getLsbD 0 = true →
          (s.maint.busy = true → done { p with phase := .yielding, timer := none }) ∧
          (s.maint.busy = false → p.interval ≠ 0 →
            done { p with phase := .pacing, timer := some 0 }) ∧
          (s.maint.busy = false → p.interval = 0 → done { p with
            phase := .claiming, timer := none
            step := some
              { address := p.pointer, outcome := none, data := 0, cancel := false
                retiring := false } }))))

/-- DEVICE_STATUS (R126, R179): ENGINE_BUSY, MODE and LEVELS at their bits, from the owners' state; the
three counts come back by division; and ID reads 0x8161. -/
def Obligations.DeviceStatusCountsComeBackByDivision : Prop :=
  ∀ s : State, s.queueBounded → s.errors.wf →
    let w := s.readRegister 1
    let levels := w.toNat % 4096
    s.readRegister 0 = 0x8161 ∧
    (w.getLsbD 15 = true ↔ s.maint.run ≠ none ∨ s.maint.queue ≠ []) ∧
    (s.store.device = .startUp → w.extractLsb' 12 3 = 7) ∧
    (s.store.device = .running → w.extractLsb' 12 3 =
      match s.patrol.phase with
      | .off => 0
      | .pacing => 1
      | .yielding => 2
      | .claiming => 3
      | .checking => 4
      | .repairing => 5) ∧
    levels =
      ((List.finRange 16).filter (fun k => s.sparing.slots[k].state = .free)).length * 153 +
        s.errors.records.length * 9 + s.link.queue.length ∧
    levels ≤ 2600 ∧ w.extractLsb' 12 3 ≠ 6 ∧ levels % 9 = s.link.queue.length ∧
    levels / 9 % 17 = s.errors.records.length ∧
    levels / 9 / 17 = ((List.finRange 16).filter (fun k => s.sparing.slots[k].state = .free)).length

/-! ## Commands (10.4) -/

/-- A word of COMMAND takes CODE from bits 15–8: each of the thirteen codes is its command, handed the low
byte with CHANNEL (R171, R178, Table 10-6). In START_UP every code, known or not, is refused with
STARTING and has no other effect; in RUNNING a code that is none of the thirteen is refused with UNKNOWN
(R171, R172). MODEL'S CHOICE (log entry 17): REGISTER_WRITE of COMMAND's select, or UNKNOWN_COMMAND with a
known code, is no command of the table, and acts as the command its word spells. -/
def Obligations.CommandsAreRefusedInStartUp : Prop :=
  (∀ (s : State) (low : BitVec 8) (w : Data), s.takesHostAccess →
     (s.store.device = .startUp →
       ∀ c ∈ ([.enable low, .disable low, .resume low, .arm low, .disarm low, .fill low, .verify low,
         .retire low, .abortJobs low, .popError low, .popCompletion low, .clearLoss low,
         .softReset low, .unknownCommand w] : List Instr),
         exec c s = .next (s.showing .starting 0)) ∧
     (let low' := w.extractLsb' 0 8
       let rows : List (Nat × Instr) := [(0x01, .enable low'), (0x02, .disable low'),
         (0x03, .resume low'), (0x04, .arm low'), (0x05, .disarm low'), (0x10, .fill low'),
         (0x11, .verify low'), (0x12, .retire low'), (0x13, .abortJobs low'), (0x20, .popError low'),
         (0x21, .popCompletion low'), (0x22, .clearLoss low'), (0x30, .softReset low')]
       (∀ e ∈ rows, w.toNat / 256 = e.1 → decodeCommand w = e.2 ∧
         exec (.registerWrite 4 w) s = exec e.2 s ∧ exec (.unknownCommand w) s = exec e.2 s) ∧
       ((∀ e ∈ rows, w.toNat / 256 ≠ e.1) → decodeCommand w = .unknownCommand w ∧
         (s.store.device = .running → exec (.unknownCommand w) s = .next (s.showing .unknown 0))))) ∧
  ∀ (s : State) (r : ResultCode) (id : BitVec 8), (s.showing r id).readRegister 5 =
    id.setWidth 16 <<< 8 ||| (match r with
      | .ok => 0
      | .starting => 1
      | .badState => 2
      | .rangeBusy => 3
      | .noTicket => 4
      | .badArgument => 5
      | .empty => 6
      | .unknown => 7)

/-- The channel commands in RUNNING. ENABLE and ARM (R31, R34, R36): refused with BAD_STATE in the wrong
position, with RANGE_BUSY if a queued or running FILL job meets the bank, and otherwise taken: the record
changes as said, and the bank is in the protected set from then on. DISABLE, RESUME and DISARM (R32, R33,
R35): each changes the named channel's position alone, or is refused with BAD_STATE. -/
def Obligations.ChannelCommandsCheckStateThenFillRanges : Prop :=
  (∀ (s : State) (low : BitVec 8) (ch : Chan), s.takesCommands → s.maint.jobsWf →
     low.toNat % 16 = ch.val →
     let c := s.channels[ch]
     let active := match c.activeBank with
       | .a => c.bankA
       | .b => c.bankB
     let inactive := match c.activeBank with
       | .a => c.bankB
       | .b => c.bankA
     let covers (t : State) (b : Bank) : Prop :=
       ∀ a : Nat, b.base.toNat ≤ a → a ≤ b.base.toNat + 2 ^ b.order.toNat → t.isProtected a = true
     (c.state ≠ .disabled → exec (.enable low) s = .next (s.showing .badState 0)) ∧
     (c.state = .disabled → s.fillMeets active →
       exec (.enable low) s = .next (s.showing .rangeBusy 0)) ∧
     (c.state = .disabled → ¬s.fillMeets active →
       let t := (s.withChan ch { c with state := .active, uncorrCount := 0 }).showing .ok 0
       exec (.enable low) s = .next t ∧ covers t active) ∧
     (c.armed = true → exec (.arm low) s = .next (s.showing .badState 0)) ∧
     (c.armed = false → s.fillMeets inactive →
       exec (.arm low) s = .next (s.showing .rangeBusy 0)) ∧
     (c.armed = false → ¬s.fillMeets inactive →
       let t := (s.withChan ch { c with armed := true }).showing .ok 0
       exec (.arm low) s = .next t ∧ covers t inactive)) ∧
  (∀ (s : State) (low : BitVec 8) (ch : Chan), s.takesCommands → low.toNat % 16 = ch.val →
     let c := s.channels[ch]
     exec (.disable low) s =
       .next ((s.withChan ch { c with state := .disabled }).showing .ok 0) ∧
     (c.state = .suspended → exec (.resume low) s =
       .next ((s.withChan ch { c with state := .active, uncorrCount := 0 }).showing .ok 0)) ∧
     (c.state ≠ .suspended → exec (.resume low) s = .next (s.showing .badState 0)) ∧
     (c.armed = true → exec (.disarm low) s =
       .next ((s.withChan ch { c with armed := false }).showing .ok 0)) ∧
     (c.armed = false → exec (.disarm low) s = .next (s.showing .badState 0)))

/-- Job commands (R121 to R124, R127, R146): refused, by the first check that fails, with STARTING,
NO_TICKET, BAD_ARGUMENT or, for FILL over the protected set, RANGE_BUSY; otherwise the job takes a
ticket, the next ID and its own copy of the arguments at the tail of the queue, a pacing patrol yields,
the head job starts if it may, and the result shows the ID. -/
def Obligations.JobCommandsAreCheckedInOrder : Prop :=
  ∀ (s : State) (low : BitVec 8), s.takesHostAccess →
    let a := s.maint.argA.toNat
    let n := s.maint.argB.toNat
    let protectedWord := ∃ x : Nat, a ≤ x ∧ x < a + n ∧ s.isProtected x = true
    let taken (j : Job) : State :=
      (({ s with
        maint := { s.maint with
          ticketsFree := s.maint.ticketsFree - 1, queue := s.maint.queue ++ [j]
          nextId := s.maint.nextId + 1 }
        patrol :=
          if s.patrol.phase = .pacing then { s.patrol with phase := .yielding, timer := none }
          else s.patrol } : State).startJob.showing .ok s.maint.nextId).settle
    let job (k : JobKind) (count : Nat) (v : Data) : Job :=
      { kind := k, id := s.maint.nextId, start := BitVec.ofNat 13 a, count := count, value := v }
    (s.store.device = .startUp →
      exec (.fill low) s = .next (s.showing .starting 0) ∧
      exec (.verify low) s = .next (s.showing .starting 0) ∧
      exec (.retire low) s = .next (s.showing .starting 0)) ∧
    (s.store.device = .running → s.maint.ticketsFree = 0 →
      exec (.fill low) s = .next (s.showing .noTicket 0) ∧
      exec (.verify low) s = .next (s.showing .noTicket 0) ∧
      exec (.retire low) s = .next (s.showing .noTicket 0)) ∧
    (s.store.device = .running → s.maint.ticketsFree ≠ 0 →
      (8191 < a ∨ n = 0 ∨ 8192 < a + n →
        exec (.fill low) s = .next (s.showing .badArgument 0) ∧
        exec (.verify low) s = .next (s.showing .badArgument 0)) ∧
      (8191 < a → exec (.retire low) s = .next (s.showing .badArgument 0)) ∧
      (a ≤ 8191 → exec (.retire low) s = .next (taken (job .retire 1 0))) ∧
      (a ≤ 8191 → 1 ≤ n → a + n ≤ 8192 →
        exec (.verify low) s = .next (taken (job .verify n 0)) ∧
        (protectedWord → exec (.fill low) s = .next (s.showing .rangeBusy 0)) ∧
        (¬protectedWord → exec (.fill low) s = .next (taken (job .fill n s.maint.argC)))))

/-- ABORT_JOBS in RUNNING (R136): every queued job ends ABORTED with 0 words; a running FILL or VERIFY
with its access granted is marked stopping; one whose claim waits ends ABORTED first, its claim
withdrawn; a running RETIRE goes on. A patrol that yields goes on if nothing is left. -/
def Obligations.AbortEndsQueuedAndUngrantedJobs : Prop :=
  ∀ (s : State) (low : BitVec 8), s.takesCommands →
    let aborted (j : Job) (words c u : Nat) : Completion :=
      { id := j.id, kind := j.kind, outcome := .aborted, start := j.start, wordsDone := words
        correctedFound := c, uncorrFound := u, slot := none }
    let queued := s.maint.queue.map (fun j => aborted j 0 0 0)
    let granted := ∃ a, s.store.access = some a ∧ a.claimant = .maint ∧ a.interest = .wanted
    (∀ j, s.maint.run = some j → j.job.kind = .retire → exec (.abortJobs low) s = .next
      (({ s with maint := { s.maint with
        queue := [], completions := s.maint.completions ++ queued } } : State).showing .ok 0).settle) ∧
    (∀ j, s.maint.run = some j → j.job.kind ≠ .retire → granted → exec (.abortJobs low) s = .next
      (({ s with maint := { s.maint with
        queue := [], run := some { j with stopping := true }
        completions := s.maint.completions ++ queued } } : State).showing .ok 0).settle) ∧
    (∀ j, s.maint.run = some j → j.job.kind ≠ .retire → ¬granted → exec (.abortJobs low) s = .next
      (({ s with
        store := { s.store with maintWait := 0 }
        maint := { s.maint with
          queue := [], run := none
          completions := s.maint.completions ++
            aborted j.job j.wordsDone j.correctedFound j.uncorrFound :: queued } }
        : State).leaveYielding.showing .ok 0).settle) ∧
    (s.maint.run = none → exec (.abortJobs low) s = .next
      (({ s with maint := { s.maint with
        queue := [], completions := s.maint.completions ++ queued } }
        : State).leaveYielding.showing .ok 0).settle)

/-- POP_ERROR, POP_COMPLETION and CLEAR_LOSS (R101, R102, R121, R134): in START_UP refused with
STARTING; in RUNNING the head record goes,
a popped completion frees its ticket and its JOB_ID is shown; on an empty queue EMPTY; the loss counter
is cleared whether 0 or not. No interrupt flag is cleared. -/
def Obligations.PopsRemoveTheHeadRecord : Prop :=
  ∀ (s : State) (low : BitVec 8), s.takesHostAccess →
    (s.store.device = .startUp →
      exec (.popError low) s = .next (s.showing .starting 0) ∧
      exec (.popCompletion low) s = .next (s.showing .starting 0) ∧
      exec (.clearLoss low) s = .next (s.showing .starting 0)) ∧
    (s.store.device = .running →
      (∀ r rest, s.errors.records = r :: rest → exec (.popError low) s = .next
        (({ s with errors := { s.errors with records := rest } } : State).showing .ok 0)) ∧
      (s.errors.records = [] → exec (.popError low) s = .next (s.showing .empty 0)) ∧
      (∀ r rest, s.maint.completions = r :: rest → exec (.popCompletion low) s = .next
        (({ s with maint := { s.maint with
          completions := rest, ticketsFree := s.maint.ticketsFree + 1 } } : State).showing .ok r.id)) ∧
      (s.maint.completions = [] → exec (.popCompletion low) s = .next (s.showing .empty 0)) ∧
      exec (.clearLoss low) s = .next
        (({ s with errors := { s.errors with loss := 0 } } : State).showing .ok 0))

/-- SOFT_RESET in RUNNING (R21, R46, R66, R86, R104, R119, R139, R155, R172, R176, R177): queues,
channel positions, patrol, interrupts and table port return to their starting conditions; the words, the
spares and the map stay; an access in progress completes, a read's result unwanted; a posted write
stays. Here the engine's slot is drained if its read is granted and dropped if not. -/
def Obligations.SoftResetKeepsTheStore : Prop :=
  ∀ (s : State) (low : BitVec 8), s.takesCommands → s.engineAgrees → ∃ e : Engine,
    exec (.softReset low) s = .next
      ({ store := { s.store with
          access := s.store.access.map (fun a => match a with
            | .read t r _ => .read t r .dropped
            | .write .posted k i => .write .posted k i
            | .write t k _ => .write t k .dropped)
          hostWait := 0, maintWait := 0, mark := none }
         channels := s.channels.map (fun c =>
          { c with state := .disabled, armed := false, uncorrCount := 0 })
         link := { s.link with queue := [], frame := 0, stall := none }
         engine := e
         errors := { records := [], loss := 0 }
         sparing := { s.sparing with retire := none }
         maint := { s.maint with
          ticketsFree := 4, queue := [], run := none, completions := [], nextId := 0 }
         patrol := { s.patrol with
          enable := false, pointer := 0, passes := 0, phase := .off, timer := none, step := none }
         host := { s.host with
          flags := ⟨false, false, false, false, false, false, false, false, false⟩
          intEnable := 0, pointer := 0, holder := .empty, refusedCount := 0, refusedAddress := 0
          outcome := .none, result := .ok, resultJob := 0 }
         outputs := s.outputs, freeIndex := s.freeIndex, pending := s.pending } : State).settle ∧
    ((∃ r i, s.store.access = some (.read .lookup r i)) →
      ∃ ch b f, e = .draining ch b f ∧
        ((∃ snap, readingSlot s.link.queue = some (ch, snap) ∧ snap.bank = b) ∨
          s.engine = .draining ch b f)) ∧
    ((∀ r i, s.store.access ≠ some (.read .lookup r i)) → e = .idle)

/-! ## Maintenance jobs (chapter 8) and word sparing (chapter 7) -/

/-- The head job starts when no job runs and no patrol step is in progress, with a fresh progress record,
a RETIRE job with its retire operation; otherwise it waits (R111, R127, R130). At a running job's end its
record joins the tail of the completion queue, the head job starts, and a yielding patrol leaves YIELDING
if nothing is left (R131, R132, R146). -/
def Obligations.JobsStartAndEndOneAtATime : Prop :=
  (∀ s : State,
     (∀ j rest, s.maint.run = none → s.patrol.step = none → s.maint.queue = j :: rest →
       s.startJob = { s with
         maint := { s.maint with
           queue := rest
           run := some
             { job := j, wordsDone := 0, correctedFound := 0, uncorrFound := 0, stopping := false } }
         sparing := { s.sparing with
           retire :=
             if j.kind = .retire then
               some { address := j.start, source := .job, phase := .read }
             else s.sparing.retire } }) ∧
     (s.maint.run ≠ none ∨ s.patrol.step ≠ none ∨ s.maint.queue = [] → s.startJob = s)) ∧
  (∀ (s : State) (j : RunningJob) (o : JobOutcome) (k : Option SlotNo),
     let q := ({ s with maint := { s.maint with
       run := none
       completions := s.maint.completions ++
         [{ id := j.job.id, kind := j.job.kind, outcome := o, start := j.job.start
            wordsDone := j.wordsDone, correctedFound := j.correctedFound
            uncorrFound := j.uncorrFound, slot := k }] } } : State).startJob
     (q.maint.run = none ∧ q.maint.queue = [] ∧ q.patrol.phase = .yielding →
       s.endJob j o k = { q with patrol :=
         if q.patrol.enable = false then { q.patrol with phase := .off, timer := none }
         else if q.patrol.interval = 0 then
           { q.patrol with
             phase := .claiming, timer := none
             step := some
               { address := q.patrol.pointer, outcome := none, data := 0, cancel := false
                 retiring := false } }
         else { q.patrol with phase := .pacing, timer := some 0 } }) ∧
     (¬(q.maint.run = none ∧ q.maint.queue = [] ∧ q.patrol.phase = .yielding) →
       s.endJob j o k = q))

/-- FILL_WORD_COMPLETION and VERIFY_READ_COMPLETION (R128, R129, R131, R136): a word is counted, a
VERIFY read filed with source JOB and counted by its outcome; a stopping job ends ABORTED, one with its
last word done ends DONE, any other goes on to its next word, whose claim is granted or waits as any
claim does, or waits for the ABORT_JOBS that comes together with this completion (R137, log entry 21).
After a soft reset, which leaves no job running, only the store is freed (R139). -/
def Obligations.JobWordsAreCountedToTheLast : Prop :=
  ∀ (s : State) (key : Option Nat) (r : ReadResult),
    let next (f : State) (k : RunningJob) : State :=
      if k.stopping = true then (f.endJob k .aborted none).settle
      else if k.wordsDone = k.job.count then (f.endJob k .done none).settle
      else ({ f with maint := { f.maint with run := some k } } : State).settleTogether .maint
    (∀ j, s.maint.run = some j →
      (s.store.access = some (.write .fill key .wanted) → exec .fillWordCompletion s =
        .next (next s.storeFreed { j with wordsDone := j.wordsDone + 1 })) ∧
      (s.store.access = some (.read .verify r .wanted) → exec .verifyReadCompletion s =
        .next (next (s.storeFreed.fileRead r .job none) { j with
          wordsDone := j.wordsDone + 1
          correctedFound := j.correctedFound + if r.outcome = .corrected then 1 else 0
          uncorrFound := j.uncorrFound +
            if r.outcome = .uncorrectable ∨ r.outcome = .poisoned then 1 else 0 }))) ∧
    (s.store.access = some (.write .fill key .dropped) →
      exec .fillWordCompletion s = .next s.storeFreed.settle) ∧
    (s.store.access = some (.read .verify r .dropped) →
      exec .verifyReadCompletion s = .next s.storeFreed.settle)

/-- RETIRE_READ_COMPLETION (R112, R118, R130, R152): the detection is filed with the operation's source;
with a FREE slot the lowest-numbered is allocated, the copy is the data returned and the poison mark says
whether the read was faulty; with none SPARES_EXHAUSTED is set, a RETIRE job ends NO_SPARE, and a patrol
step falls back to a write-back of that data, or ends if it is cancelled or the read was faulty.
SPARE_WRITE_COMPLETION is the map commit (R105, R107, R109, R114, R117, R118): the address reaches the
allocated slot, which is MAPPED with the operation's poison mark; a slot it reached before is DEFECTIVE
with its flag clear; every other address and slot is as before; the free count falls by one and, at 0,
sets SPARES_EXHAUSTED; the job or the step ends. -/
def Obligations.RetireOperationMovesTheWordToASpare : Prop :=
  (∀ (s : State) (r : ReadResult) (op : RetireOp),
     s.store.access = some (.read .retire r .wanted) → s.sparing.retire = some op →
     let src : Source := match op.source with
       | .job => .job
       | .patrol => .patrol
     let faulty := r.outcome = .uncorrectable ∨ r.outcome = .poisoned
     let f := s.storeFreed.fileRead r src none
     let none' : State := { f with
       host := { f.host with flags := { f.host.flags with sparesExhausted := true } }
       sparing := { s.sparing with retire := none } }
     (∀ k : SlotNo, s.sparing.slots[k].state = .free →
       (∀ i : SlotNo, i < k → s.sparing.slots[i].state ≠ .free) →
       exec .retireReadCompletion s = .next ({ f with sparing := { s.sparing with
         retire := some { op with phase := .write (
           { outcome := r.outcome, copy := r.data, poison := decide faulty, slot := k }
             : RetireCopy) } } } : State).settle) ∧
     ((∀ k : SlotNo, s.sparing.slots[k].state ≠ .free) →
       (∀ j, op.source = .job → s.maint.run = some j → exec .retireReadCompletion s = .next
         (({ none' with store := { none'.store with mark := none } } : State).endJob
           { j with
             wordsDone := 1, correctedFound := if r.outcome = .corrected then 1 else 0
             uncorrFound := if faulty then 1 else 0 } .noSpare none).settle) ∧
       (∀ st, op.source = .patrol → s.patrol.step = some st →
         (st.cancel = true ∨ faulty → exec .retireReadCompletion s = .next none'.endStep.settle) ∧
         (st.cancel = false → ¬faulty → exec .retireReadCompletion s = .next
           ({ none' with patrol := { s.patrol with
             step := some { st with data := r.data, retiring := false } } } : State).settle)))) ∧
  (∀ (s : State) (key : Option Nat) (op : RetireOp) (c : RetireCopy),
     s.store.access = some (.write .spare key .wanted) → s.sparing.retire = some op →
     op.phase = .write c → s.sparing.wf →
     let m := (s.storeFreed.mapCommit op.address c)
     (exec .spareWriteCompletion s = .next (m.retireDone op c).settle) ∧
     (∀ j, op.source = .job → s.maint.run = some j → m.retireDone op c =
       ({ m with
         sparing := { m.sparing with retire := none }
         store := { m.store with mark := none } } : State).endJob
         { j with
           wordsDone := 1, correctedFound := if c.outcome = .corrected then 1 else 0
           uncorrFound := if c.outcome = .uncorrectable ∨ c.outcome = .poisoned then 1 else 0 }
         .done (some c.slot)) ∧
     (op.source = .patrol → m.retireDone op c =
       ({ m with sparing := { m.sparing with retire := none } } : State).endStep) ∧
     m.resolve op.address = .spare c.slot ∧
     (∀ a : Addr, a ≠ op.address → m.resolve a = s.resolve a) ∧
     m.sparing.slots[c.slot] = { state := .mapped, poison := c.poison } ∧
     (∀ old : SlotNo, s.resolve op.address = .spare old →
       m.sparing.slots[old] = { state := .defective, poison := false }) ∧
     (∀ k : SlotNo, k ≠ c.slot → s.resolve op.address ≠ .spare k →
       m.sparing.slots[k] = s.sparing.slots[k]) ∧
     m.sparing.freeCount + 1 = s.sparing.freeCount ∧
     m = { s.storeFreed with
       sparing := { s.sparing with slots := m.sparing.slots, map := m.sparing.map }
       host := { s.host with flags := { s.host.flags with
         sparesExhausted := s.host.flags.sparesExhausted || decide (s.sparing.freeCount = 1) } } })

/-! ## Patrol scrubbing (chapter 9) -/

/-- PATROL_READ_COMPLETION (R147, R148, R151): the detection is filed with source PATROL; a CORRECTED
read goes to REPAIRING, with a retire operation if the COUNT handed back reaches a nonzero RETIRE_LIMIT
and a write-back of the corrected data otherwise; any other outcome ends the step. -/
def Obligations.PatrolReadRepairsOnlyCorrectedWords : Prop :=
  ∀ (s : State) (r : ReadResult) (st : PatrolStep),
    s.store.access = some (.read .patrol r .wanted) → s.patrol.step = some st →
    let f := s.storeFreed.fileRead r .patrol none
    let retires := ∃ n, s.storeFreed.filedCount r .patrol none = some n ∧ s.patrol.retireLimit ≠ 0 ∧
      s.patrol.retireLimit.toNat ≤ n.toNat
    let acting (retiring : Bool) : Patrol := { s.patrol with
      phase := .repairing
      step := some { st with outcome := some .corrected, data := r.data, retiring := retiring } }
    (r.outcome ≠ .corrected → exec .patrolReadCompletion s = .next f.endStep.settle) ∧
    (r.outcome = .corrected → retires → exec .patrolReadCompletion s = .next
      ({ f with
        patrol := acting true
        sparing := { s.sparing with
          retire := some { address := st.address, source := .patrol, phase := .read } } }
        : State).settle) ∧
    (r.outcome = .corrected → ¬retires → exec .patrolReadCompletion s = .next
      ({ f with patrol := acting false } : State).settle)

/-- A step's end (R142, R144, R149, R153): the mark is released, the pointer advances and counts a pass
at the wrap, the head job starts, and the patrol goes OFF, to YIELDING, to PACING from 0, or to a new
step. WRITE_BACK_COMPLETION is such an end; a completion whose operation a soft reset ended only frees
the store (R21, R119, R155). -/
def Obligations.StepEndAdvancesThePointer : Prop :=
  ∀ (s : State) (st : PatrolStep) (key : Option Nat) (r : ReadResult),
    let q := ({ s with
      store := { s.store with mark := none }
      patrol := { s.patrol with
        pointer := s.patrol.pointer + 1
        passes := if s.patrol.pointer = 8191 then s.patrol.passes + 1 else s.patrol.passes
        step := none } } : State).startJob
    s.endStep = { q with patrol :=
      if q.patrol.enable = false then { q.patrol with phase := .off, timer := none }
      else if q.maint.run ≠ none ∨ q.maint.queue ≠ [] then
        { q.patrol with phase := .yielding, timer := none }
      else if q.patrol.interval = 0 then
        { q.patrol with
          phase := .claiming, timer := none
          step := some
            { address := s.patrol.pointer + 1, outcome := none, data := 0, cancel := false
              retiring := false } }
      else { q.patrol with phase := .pacing, timer := some 0 } } ∧
    (s.store.access = some (.write .writeBack key .wanted) → s.patrol.step = some st →
      exec .writeBackCompletion s = .next s.storeFreed.endStep.settle) ∧
    (s.store.access = some (.write .writeBack key .dropped) →
      exec .writeBackCompletion s = .next s.storeFreed.settle) ∧
    (s.store.access = some (.read .patrol r .dropped) →
      exec .patrolReadCompletion s = .next s.storeFreed.settle) ∧
    (s.store.access = some (.read .retire r .dropped) →
      exec .retireReadCompletion s = .next s.storeFreed.settle) ∧
    (s.store.access = some (.write .spare key .dropped) →
      exec .spareWriteCompletion s = .next s.storeFreed.settle)

/-! ## Invariants that every step keeps -/

/-- The list of stored words keeps its canonical form. -/
def Obligations.StepKeepsTheMemoryCanonical : Prop :=
  ∀ s t : State, memCanonical s.store.mem → s.startUpQuiet → s.sparing.wf →
    (∀ k, s.store.fill = some k → k < 8208) →
    (∀ tag k i, s.store.access = some (.write tag (some k) i) → k < 8208) →
    step s = .next t →
    memCanonical t.store.mem ∧ (∀ k, t.store.fill = some k → k < 8208) ∧
      ∀ tag k i, t.store.access = some (.write tag (some k) i) → k < 8208

/-- No claim waits while the store is free in RUNNING (R11): what can be granted is granted at the event
that presents it. Two readings of the model except what the rules themselves leave waiting: a claim that
the next waiting command withdraws (R87, R137, log entry 21), and the claiming read of a step that the
end of the start-up fill starts, whose grant every step but that one leaves made (R179, log entry 22). -/
def Obligations.StepLeavesNoClaimWaitingOnAFreeStore : Prop :=
  ∀ s t : State, s.noIdleClaim → s.startUpQuiet → step s = .next t →
    t.noIdleClaim ∧
      ((∀ rest, s.pending ≠ .startUpFillWriteCompletion :: rest) → t.noGrantOwed)

/-- The wait counts stay within 0–4 and 0–16 (R12, R13), the lookup queue within 8 slots (R52), TIMEBASE
within 8–100 (R173), MAINT_SHARE within 1–16 (R14), and the window index below its window's size (R169).
No running timer stands past its setting unexpired (R61, R62, R144, R145). In START_UP every other block
is idle, and a stretched host access always has what it waits for (R18, R157, Table 2-10). -/
def Obligations.StepKeepsCountsInRangeAndStartUpQuiet : Prop :=
  (∀ s t : State, s.waitsInRange → s.queueBounded → s.registersInRange → step s = .next t →
     t.waitsInRange ∧ t.queueBounded ∧ t.registersInRange) ∧
  (∀ s t : State, s.timersNotOverdue → step s = .next t → t.timersNotOverdue) ∧
  (∀ s t : State, s.startUpQuiet → s.stretchWaits → step s = .next t →
     t.startUpQuiet ∧ t.stretchWaits)

/-- Every bank descriptor keeps ORDER 4–10 and BASE + 2^k at most 8191, and every clamp pair its order,
in the contexts and in the snapshots (R23, R27, R79). -/
def Obligations.StepKeepsEveryBankInTheAddressSpace : Prop :=
  ∀ s t : State, s.contextsWf → step s = .next t → t.contextsWf

/-- The lookup queue and the engine agree (R52, R59, R68, R69): one READING slot exactly while the engine
evaluates, none WAITING while it is IDLE, and a drained read in progress exactly in DRAINING; and the
stall timer runs exactly while the head is DONE (R51, R61). -/
def Obligations.StepKeepsQueueAndEngineInAgreement : Prop :=
  ∀ s t : State, s.engineAgrees → s.stallFollowsOffer → step s = .next t →
    t.engineAgrees ∧ t.stallFollowsOffer

/-- The error record queue never holds more than 16 records, and no two have both the same address and
the same kind (R89). -/
def Obligations.StepKeepsErrorRecordsDistinct : Prop :=
  ∀ s t : State, s.errors.wf → step s = .next t → t.errors.wf

/-- No two valid map entries name one address or one slot, a slot is MAPPED exactly if a valid entry
names it, poison stands only on a MAPPED slot, and an allocated slot stays FREE until its commit (R105,
R107, R112). -/
def Obligations.StepKeepsMapAndSlotsInAgreement : Prop :=
  ∀ s t : State, s.sparing.wf → step s = .next t → t.sparing.wf

/-- Each of the four tickets is free or held by one job queued, running or completed (R121), and every
such job has arguments its command accepts, a running one with words left (R123, R128). -/
def Obligations.StepAccountsForEveryTicket : Prop :=
  ∀ s t : State, s.maint.ticketsAccounted → s.maint.jobsWf → step s = .next t →
    t.maint.ticketsAccounted ∧ t.maint.jobsWf

/-- HEADLINE. No word of a queued or running FILL job's range comes into the protected set (R44, R124,
R138): what would bring one in is refused. -/
def Obligations.StepKeepsFillRangesUnprotected : Prop :=
  ∀ s t : State, s.fillsUnprotected → step s = .next t → t.fillsUnprotected

/-- The maintenance engine does one thing at a time, the queue waits only behind a job or a step, and
each retire operation, claimed word and maintenance access belongs to what is in progress (R16, R111,
R126, R127, R143, R146). -/
def Obligations.StepKeepsTheMaintenanceEngineSound : Prop :=
  ∀ s t : State, s.maintSound → s.startUpQuiet → step s = .next t → t.maintSound
end

