-- ==== Sys2Proof/Laws/State.lean ====
section
/-! SUPPORT. What each named update of the state leaves in each field: one lemma per field per
update, so that no later proof unfolds a record update. -/

namespace Sys2Proof.Machine

variable (s : State)

/-! ### setStore -/

@[simp] theorem State.setStore_store (v : Store) : (s.setStore v).store = v := rfl
@[simp] theorem State.setStore_channels (v : Store) : (s.setStore v).channels = s.channels := rfl
@[simp] theorem State.setStore_link (v : Store) : (s.setStore v).link = s.link := rfl
@[simp] theorem State.setStore_engine (v : Store) : (s.setStore v).engine = s.engine := rfl
@[simp] theorem State.setStore_errors (v : Store) : (s.setStore v).errors = s.errors := rfl
@[simp] theorem State.setStore_sparing (v : Store) : (s.setStore v).sparing = s.sparing := rfl
@[simp] theorem State.setStore_maint (v : Store) : (s.setStore v).maint = s.maint := rfl
@[simp] theorem State.setStore_patrol (v : Store) : (s.setStore v).patrol = s.patrol := rfl
@[simp] theorem State.setStore_host (v : Store) : (s.setStore v).host = s.host := rfl
@[simp] theorem State.setStore_outputs (v : Store) : (s.setStore v).outputs = s.outputs := rfl
@[simp] theorem State.setStore_freeIndex (v : Store) : (s.setStore v).freeIndex = s.freeIndex := rfl
@[simp] theorem State.setStore_pending (v : Store) : (s.setStore v).pending = s.pending := rfl

/-! ### setChannels -/

@[simp] theorem State.setChannels_store (v : Vector Context 16) : (s.setChannels v).store = s.store := rfl
@[simp] theorem State.setChannels_channels (v : Vector Context 16) : (s.setChannels v).channels = v := rfl
@[simp] theorem State.setChannels_link (v : Vector Context 16) : (s.setChannels v).link = s.link := rfl
@[simp] theorem State.setChannels_engine (v : Vector Context 16) : (s.setChannels v).engine = s.engine := rfl
@[simp] theorem State.setChannels_errors (v : Vector Context 16) : (s.setChannels v).errors = s.errors := rfl
@[simp] theorem State.setChannels_sparing (v : Vector Context 16) : (s.setChannels v).sparing = s.sparing := rfl
@[simp] theorem State.setChannels_maint (v : Vector Context 16) : (s.setChannels v).maint = s.maint := rfl
@[simp] theorem State.setChannels_patrol (v : Vector Context 16) : (s.setChannels v).patrol = s.patrol := rfl
@[simp] theorem State.setChannels_host (v : Vector Context 16) : (s.setChannels v).host = s.host := rfl
@[simp] theorem State.setChannels_outputs (v : Vector Context 16) : (s.setChannels v).outputs = s.outputs := rfl
@[simp] theorem State.setChannels_freeIndex (v : Vector Context 16) : (s.setChannels v).freeIndex = s.freeIndex := rfl
@[simp] theorem State.setChannels_pending (v : Vector Context 16) : (s.setChannels v).pending = s.pending := rfl

/-! ### setLink -/

@[simp] theorem State.setLink_store (v : Link) : (s.setLink v).store = s.store := rfl
@[simp] theorem State.setLink_channels (v : Link) : (s.setLink v).channels = s.channels := rfl
@[simp] theorem State.setLink_link (v : Link) : (s.setLink v).link = v := rfl
@[simp] theorem State.setLink_engine (v : Link) : (s.setLink v).engine = s.engine := rfl
@[simp] theorem State.setLink_errors (v : Link) : (s.setLink v).errors = s.errors := rfl
@[simp] theorem State.setLink_sparing (v : Link) : (s.setLink v).sparing = s.sparing := rfl
@[simp] theorem State.setLink_maint (v : Link) : (s.setLink v).maint = s.maint := rfl
@[simp] theorem State.setLink_patrol (v : Link) : (s.setLink v).patrol = s.patrol := rfl
@[simp] theorem State.setLink_host (v : Link) : (s.setLink v).host = s.host := rfl
@[simp] theorem State.setLink_outputs (v : Link) : (s.setLink v).outputs = s.outputs := rfl
@[simp] theorem State.setLink_freeIndex (v : Link) : (s.setLink v).freeIndex = s.freeIndex := rfl
@[simp] theorem State.setLink_pending (v : Link) : (s.setLink v).pending = s.pending := rfl

/-! ### setEngine -/

@[simp] theorem State.setEngine_store (v : Engine) : (s.setEngine v).store = s.store := rfl
@[simp] theorem State.setEngine_channels (v : Engine) : (s.setEngine v).channels = s.channels := rfl
@[simp] theorem State.setEngine_link (v : Engine) : (s.setEngine v).link = s.link := rfl
@[simp] theorem State.setEngine_engine (v : Engine) : (s.setEngine v).engine = v := rfl
@[simp] theorem State.setEngine_errors (v : Engine) : (s.setEngine v).errors = s.errors := rfl
@[simp] theorem State.setEngine_sparing (v : Engine) : (s.setEngine v).sparing = s.sparing := rfl
@[simp] theorem State.setEngine_maint (v : Engine) : (s.setEngine v).maint = s.maint := rfl
@[simp] theorem State.setEngine_patrol (v : Engine) : (s.setEngine v).patrol = s.patrol := rfl
@[simp] theorem State.setEngine_host (v : Engine) : (s.setEngine v).host = s.host := rfl
@[simp] theorem State.setEngine_outputs (v : Engine) : (s.setEngine v).outputs = s.outputs := rfl
@[simp] theorem State.setEngine_freeIndex (v : Engine) : (s.setEngine v).freeIndex = s.freeIndex := rfl
@[simp] theorem State.setEngine_pending (v : Engine) : (s.setEngine v).pending = s.pending := rfl

/-! ### setErrors -/

@[simp] theorem State.setErrors_store (v : ErrorQueue) : (s.setErrors v).store = s.store := rfl
@[simp] theorem State.setErrors_channels (v : ErrorQueue) : (s.setErrors v).channels = s.channels := rfl
@[simp] theorem State.setErrors_link (v : ErrorQueue) : (s.setErrors v).link = s.link := rfl
@[simp] theorem State.setErrors_engine (v : ErrorQueue) : (s.setErrors v).engine = s.engine := rfl
@[simp] theorem State.setErrors_errors (v : ErrorQueue) : (s.setErrors v).errors = v := rfl
@[simp] theorem State.setErrors_sparing (v : ErrorQueue) : (s.setErrors v).sparing = s.sparing := rfl
@[simp] theorem State.setErrors_maint (v : ErrorQueue) : (s.setErrors v).maint = s.maint := rfl
@[simp] theorem State.setErrors_patrol (v : ErrorQueue) : (s.setErrors v).patrol = s.patrol := rfl
@[simp] theorem State.setErrors_host (v : ErrorQueue) : (s.setErrors v).host = s.host := rfl
@[simp] theorem State.setErrors_outputs (v : ErrorQueue) : (s.setErrors v).outputs = s.outputs := rfl
@[simp] theorem State.setErrors_freeIndex (v : ErrorQueue) : (s.setErrors v).freeIndex = s.freeIndex := rfl
@[simp] theorem State.setErrors_pending (v : ErrorQueue) : (s.setErrors v).pending = s.pending := rfl

/-! ### setSparing -/

@[simp] theorem State.setSparing_store (v : Sparing) : (s.setSparing v).store = s.store := rfl
@[simp] theorem State.setSparing_channels (v : Sparing) : (s.setSparing v).channels = s.channels := rfl
@[simp] theorem State.setSparing_link (v : Sparing) : (s.setSparing v).link = s.link := rfl
@[simp] theorem State.setSparing_engine (v : Sparing) : (s.setSparing v).engine = s.engine := rfl
@[simp] theorem State.setSparing_errors (v : Sparing) : (s.setSparing v).errors = s.errors := rfl
@[simp] theorem State.setSparing_sparing (v : Sparing) : (s.setSparing v).sparing = v := rfl
@[simp] theorem State.setSparing_maint (v : Sparing) : (s.setSparing v).maint = s.maint := rfl
@[simp] theorem State.setSparing_patrol (v : Sparing) : (s.setSparing v).patrol = s.patrol := rfl
@[simp] theorem State.setSparing_host (v : Sparing) : (s.setSparing v).host = s.host := rfl
@[simp] theorem State.setSparing_outputs (v : Sparing) : (s.setSparing v).outputs = s.outputs := rfl
@[simp] theorem State.setSparing_freeIndex (v : Sparing) : (s.setSparing v).freeIndex = s.freeIndex := rfl
@[simp] theorem State.setSparing_pending (v : Sparing) : (s.setSparing v).pending = s.pending := rfl

/-! ### setMaint -/

@[simp] theorem State.setMaint_store (v : Maint) : (s.setMaint v).store = s.store := rfl
@[simp] theorem State.setMaint_channels (v : Maint) : (s.setMaint v).channels = s.channels := rfl
@[simp] theorem State.setMaint_link (v : Maint) : (s.setMaint v).link = s.link := rfl
@[simp] theorem State.setMaint_engine (v : Maint) : (s.setMaint v).engine = s.engine := rfl
@[simp] theorem State.setMaint_errors (v : Maint) : (s.setMaint v).errors = s.errors := rfl
@[simp] theorem State.setMaint_sparing (v : Maint) : (s.setMaint v).sparing = s.sparing := rfl
@[simp] theorem State.setMaint_maint (v : Maint) : (s.setMaint v).maint = v := rfl
@[simp] theorem State.setMaint_patrol (v : Maint) : (s.setMaint v).patrol = s.patrol := rfl
@[simp] theorem State.setMaint_host (v : Maint) : (s.setMaint v).host = s.host := rfl
@[simp] theorem State.setMaint_outputs (v : Maint) : (s.setMaint v).outputs = s.outputs := rfl
@[simp] theorem State.setMaint_freeIndex (v : Maint) : (s.setMaint v).freeIndex = s.freeIndex := rfl
@[simp] theorem State.setMaint_pending (v : Maint) : (s.setMaint v).pending = s.pending := rfl

/-! ### setPatrol -/

@[simp] theorem State.setPatrol_store (v : Patrol) : (s.setPatrol v).store = s.store := rfl
@[simp] theorem State.setPatrol_channels (v : Patrol) : (s.setPatrol v).channels = s.channels := rfl
@[simp] theorem State.setPatrol_link (v : Patrol) : (s.setPatrol v).link = s.link := rfl
@[simp] theorem State.setPatrol_engine (v : Patrol) : (s.setPatrol v).engine = s.engine := rfl
@[simp] theorem State.setPatrol_errors (v : Patrol) : (s.setPatrol v).errors = s.errors := rfl
@[simp] theorem State.setPatrol_sparing (v : Patrol) : (s.setPatrol v).sparing = s.sparing := rfl
@[simp] theorem State.setPatrol_maint (v : Patrol) : (s.setPatrol v).maint = s.maint := rfl
@[simp] theorem State.setPatrol_patrol (v : Patrol) : (s.setPatrol v).patrol = v := rfl
@[simp] theorem State.setPatrol_host (v : Patrol) : (s.setPatrol v).host = s.host := rfl
@[simp] theorem State.setPatrol_outputs (v : Patrol) : (s.setPatrol v).outputs = s.outputs := rfl
@[simp] theorem State.setPatrol_freeIndex (v : Patrol) : (s.setPatrol v).freeIndex = s.freeIndex := rfl
@[simp] theorem State.setPatrol_pending (v : Patrol) : (s.setPatrol v).pending = s.pending := rfl

/-! ### setHost -/

@[simp] theorem State.setHost_store (v : HostPort) : (s.setHost v).store = s.store := rfl
@[simp] theorem State.setHost_channels (v : HostPort) : (s.setHost v).channels = s.channels := rfl
@[simp] theorem State.setHost_link (v : HostPort) : (s.setHost v).link = s.link := rfl
@[simp] theorem State.setHost_engine (v : HostPort) : (s.setHost v).engine = s.engine := rfl
@[simp] theorem State.setHost_errors (v : HostPort) : (s.setHost v).errors = s.errors := rfl
@[simp] theorem State.setHost_sparing (v : HostPort) : (s.setHost v).sparing = s.sparing := rfl
@[simp] theorem State.setHost_maint (v : HostPort) : (s.setHost v).maint = s.maint := rfl
@[simp] theorem State.setHost_patrol (v : HostPort) : (s.setHost v).patrol = s.patrol := rfl
@[simp] theorem State.setHost_host (v : HostPort) : (s.setHost v).host = v := rfl
@[simp] theorem State.setHost_outputs (v : HostPort) : (s.setHost v).outputs = s.outputs := rfl
@[simp] theorem State.setHost_freeIndex (v : HostPort) : (s.setHost v).freeIndex = s.freeIndex := rfl
@[simp] theorem State.setHost_pending (v : HostPort) : (s.setHost v).pending = s.pending := rfl

/-! ### setOutputs -/

@[simp] theorem State.setOutputs_store (v : Outputs) : (s.setOutputs v).store = s.store := rfl
@[simp] theorem State.setOutputs_channels (v : Outputs) : (s.setOutputs v).channels = s.channels := rfl
@[simp] theorem State.setOutputs_link (v : Outputs) : (s.setOutputs v).link = s.link := rfl
@[simp] theorem State.setOutputs_engine (v : Outputs) : (s.setOutputs v).engine = s.engine := rfl
@[simp] theorem State.setOutputs_errors (v : Outputs) : (s.setOutputs v).errors = s.errors := rfl
@[simp] theorem State.setOutputs_sparing (v : Outputs) : (s.setOutputs v).sparing = s.sparing := rfl
@[simp] theorem State.setOutputs_maint (v : Outputs) : (s.setOutputs v).maint = s.maint := rfl
@[simp] theorem State.setOutputs_patrol (v : Outputs) : (s.setOutputs v).patrol = s.patrol := rfl
@[simp] theorem State.setOutputs_host (v : Outputs) : (s.setOutputs v).host = s.host := rfl
@[simp] theorem State.setOutputs_outputs (v : Outputs) : (s.setOutputs v).outputs = v := rfl
@[simp] theorem State.setOutputs_freeIndex (v : Outputs) : (s.setOutputs v).freeIndex = s.freeIndex := rfl
@[simp] theorem State.setOutputs_pending (v : Outputs) : (s.setOutputs v).pending = s.pending := rfl

/-! ### The updates over the host port and the store -/

@[simp] theorem State.setAccess_channels (v : Option Access) : (s.setAccess v).channels = s.channels := rfl
@[simp] theorem State.setAccess_link (v : Option Access) : (s.setAccess v).link = s.link := rfl
@[simp] theorem State.setAccess_engine (v : Option Access) : (s.setAccess v).engine = s.engine := rfl
@[simp] theorem State.setAccess_errors (v : Option Access) : (s.setAccess v).errors = s.errors := rfl
@[simp] theorem State.setAccess_sparing (v : Option Access) : (s.setAccess v).sparing = s.sparing := rfl
@[simp] theorem State.setAccess_maint (v : Option Access) : (s.setAccess v).maint = s.maint := rfl
@[simp] theorem State.setAccess_patrol (v : Option Access) : (s.setAccess v).patrol = s.patrol := rfl
@[simp] theorem State.setAccess_host (v : Option Access) : (s.setAccess v).host = s.host := rfl
@[simp] theorem State.setAccess_outputs (v : Option Access) : (s.setAccess v).outputs = s.outputs := rfl
@[simp] theorem State.setAccess_freeIndex (v : Option Access) : (s.setAccess v).freeIndex = s.freeIndex := rfl
@[simp] theorem State.setAccess_pending (v : Option Access) : (s.setAccess v).pending = s.pending := rfl

@[simp] theorem State.setFlags_store (v : Flags) : (s.setFlags v).store = s.store := rfl
@[simp] theorem State.setFlags_channels (v : Flags) : (s.setFlags v).channels = s.channels := rfl
@[simp] theorem State.setFlags_link (v : Flags) : (s.setFlags v).link = s.link := rfl
@[simp] theorem State.setFlags_engine (v : Flags) : (s.setFlags v).engine = s.engine := rfl
@[simp] theorem State.setFlags_errors (v : Flags) : (s.setFlags v).errors = s.errors := rfl
@[simp] theorem State.setFlags_sparing (v : Flags) : (s.setFlags v).sparing = s.sparing := rfl
@[simp] theorem State.setFlags_maint (v : Flags) : (s.setFlags v).maint = s.maint := rfl
@[simp] theorem State.setFlags_patrol (v : Flags) : (s.setFlags v).patrol = s.patrol := rfl
@[simp] theorem State.setFlags_outputs (v : Flags) : (s.setFlags v).outputs = s.outputs := rfl
@[simp] theorem State.setFlags_freeIndex (v : Flags) : (s.setFlags v).freeIndex = s.freeIndex := rfl
@[simp] theorem State.setFlags_pending (v : Flags) : (s.setFlags v).pending = s.pending := rfl

@[simp] theorem State.setChan_store (c : Chan) (v : Context) : (s.setChan c v).store = s.store := rfl
@[simp] theorem State.setChan_link (c : Chan) (v : Context) : (s.setChan c v).link = s.link := rfl
@[simp] theorem State.setChan_engine (c : Chan) (v : Context) : (s.setChan c v).engine = s.engine := rfl
@[simp] theorem State.setChan_errors (c : Chan) (v : Context) : (s.setChan c v).errors = s.errors := rfl
@[simp] theorem State.setChan_sparing (c : Chan) (v : Context) : (s.setChan c v).sparing = s.sparing := rfl
@[simp] theorem State.setChan_maint (c : Chan) (v : Context) : (s.setChan c v).maint = s.maint := rfl
@[simp] theorem State.setChan_patrol (c : Chan) (v : Context) : (s.setChan c v).patrol = s.patrol := rfl
@[simp] theorem State.setChan_host (c : Chan) (v : Context) : (s.setChan c v).host = s.host := rfl
@[simp] theorem State.setChan_outputs (c : Chan) (v : Context) : (s.setChan c v).outputs = s.outputs := rfl
@[simp] theorem State.setChan_freeIndex (c : Chan) (v : Context) : (s.setChan c v).freeIndex = s.freeIndex := rfl
@[simp] theorem State.setChan_pending (c : Chan) (v : Context) : (s.setChan c v).pending = s.pending := rfl

@[simp] theorem State.answer_store (c : ResultCode) (id : BitVec 8) : (s.answer c id).store = s.store := rfl
@[simp] theorem State.answer_channels (c : ResultCode) (id : BitVec 8) : (s.answer c id).channels = s.channels := rfl
@[simp] theorem State.answer_link (c : ResultCode) (id : BitVec 8) : (s.answer c id).link = s.link := rfl
@[simp] theorem State.answer_engine (c : ResultCode) (id : BitVec 8) : (s.answer c id).engine = s.engine := rfl
@[simp] theorem State.answer_errors (c : ResultCode) (id : BitVec 8) : (s.answer c id).errors = s.errors := rfl
@[simp] theorem State.answer_sparing (c : ResultCode) (id : BitVec 8) : (s.answer c id).sparing = s.sparing := rfl
@[simp] theorem State.answer_maint (c : ResultCode) (id : BitVec 8) : (s.answer c id).maint = s.maint := rfl
@[simp] theorem State.answer_patrol (c : ResultCode) (id : BitVec 8) : (s.answer c id).patrol = s.patrol := rfl
@[simp] theorem State.answer_outputs (c : ResultCode) (id : BitVec 8) : (s.answer c id).outputs = s.outputs := rfl
@[simp] theorem State.answer_freeIndex (c : ResultCode) (id : BitVec 8) : (s.answer c id).freeIndex = s.freeIndex := rfl
@[simp] theorem State.answer_pending (c : ResultCode) (id : BitVec 8) : (s.answer c id).pending = s.pending := rfl

@[simp] theorem State.putWord_channels (k : Nat) (w : StoredWord) : (s.putWord k w).channels = s.channels := rfl
@[simp] theorem State.putWord_link (k : Nat) (w : StoredWord) : (s.putWord k w).link = s.link := rfl
@[simp] theorem State.putWord_engine (k : Nat) (w : StoredWord) : (s.putWord k w).engine = s.engine := rfl
@[simp] theorem State.putWord_errors (k : Nat) (w : StoredWord) : (s.putWord k w).errors = s.errors := rfl
@[simp] theorem State.putWord_sparing (k : Nat) (w : StoredWord) : (s.putWord k w).sparing = s.sparing := rfl
@[simp] theorem State.putWord_maint (k : Nat) (w : StoredWord) : (s.putWord k w).maint = s.maint := rfl
@[simp] theorem State.putWord_patrol (k : Nat) (w : StoredWord) : (s.putWord k w).patrol = s.patrol := rfl
@[simp] theorem State.putWord_host (k : Nat) (w : StoredWord) : (s.putWord k w).host = s.host := rfl
@[simp] theorem State.putWord_outputs (k : Nat) (w : StoredWord) : (s.putWord k w).outputs = s.outputs := rfl
@[simp] theorem State.putWord_freeIndex (k : Nat) (w : StoredWord) : (s.putWord k w).freeIndex = s.freeIndex := rfl
@[simp] theorem State.putWord_pending (k : Nat) (w : StoredWord) : (s.putWord k w).pending = s.pending := rfl

@[simp] theorem State.returnData_store (d : Data) : (s.returnData d).store = s.store := rfl
@[simp] theorem State.returnData_channels (d : Data) : (s.returnData d).channels = s.channels := rfl
@[simp] theorem State.returnData_link (d : Data) : (s.returnData d).link = s.link := rfl
@[simp] theorem State.returnData_engine (d : Data) : (s.returnData d).engine = s.engine := rfl
@[simp] theorem State.returnData_errors (d : Data) : (s.returnData d).errors = s.errors := rfl
@[simp] theorem State.returnData_sparing (d : Data) : (s.returnData d).sparing = s.sparing := rfl
@[simp] theorem State.returnData_maint (d : Data) : (s.returnData d).maint = s.maint := rfl
@[simp] theorem State.returnData_patrol (d : Data) : (s.returnData d).patrol = s.patrol := rfl
@[simp] theorem State.returnData_host (d : Data) : (s.returnData d).host = s.host := rfl
@[simp] theorem State.returnData_freeIndex (d : Data) : (s.returnData d).freeIndex = s.freeIndex := rfl
@[simp] theorem State.returnData_pending (d : Data) : (s.returnData d).pending = s.pending := rfl

@[simp] theorem State.setAccess_store (v : Option Access) :
    (s.setAccess v).store = { s.store with access := v } := rfl
@[simp] theorem State.setFlags_host (v : Flags) : (s.setFlags v).host = { s.host with flags := v } := rfl
@[simp] theorem State.setChan_channels (c : Chan) (v : Context) :
    (s.setChan c v).channels = s.channels.set c v := rfl
@[simp] theorem State.answer_host (c : ResultCode) (id : BitVec 8) :
    (s.answer c id).host = { s.host with result := c, resultJob := id } := rfl
@[simp] theorem State.putWord_store (k : Nat) (w : StoredWord) :
    (s.putWord k w).store = { s.store with mem := memWrite s.store.mem k w } := rfl
@[simp] theorem State.returnData_outputs (d : Data) :
    (s.returnData d).outputs = { s.outputs with readData := d } := rfl

end Sys2Proof.Machine
end

