-- ==== Sys2Proof/Laws/Sched.lean ====
section
/-! SUPPORT. The shared operations of Machine/ErrorLog.lean, Protect.lean and Sched.lean: what each can
do, and the fields it leaves. -/

namespace Sys2Proof.Machine

variable (s : State)

/-! ### Flags and reports -/

/-- A counting report changes one channel record and the flag SUSPENDED (R39, R40). -/
@[simp] theorem State.reportFaulty_frame (ch : Chan) :
    (s.reportFaulty ch).store = s.store ∧ (s.reportFaulty ch).link = s.link ∧
    (s.reportFaulty ch).engine = s.engine ∧ (s.reportFaulty ch).errors = s.errors ∧
    (s.reportFaulty ch).sparing = s.sparing ∧ (s.reportFaulty ch).maint = s.maint ∧
    (s.reportFaulty ch).patrol = s.patrol ∧ (s.reportFaulty ch).outputs = s.outputs ∧
    (s.reportFaulty ch).freeIndex = s.freeIndex ∧ (s.reportFaulty ch).pending = s.pending ∧
    (s.reportFaulty ch).channels = s.channels.set ch s.channels[ch].countFaulty := by
  unfold State.reportFaulty State.raiseSuspended
  dsimp only
  split <;> simp

/-- Of the host port a counting report changes the flags alone. -/
theorem State.reportFaulty_host (ch : Chan) :
    ∃ f, (s.reportFaulty ch).host = { s.host with flags := f } := by
  unfold State.reportFaulty State.raiseSuspended
  dsimp only
  split
  · exact ⟨_, rfl⟩
  · exact ⟨s.host.flags, rfl⟩

/-! ### Filing -/

/-- A filing changes the error record queue and the two sticky flags of the log (R91 to R97). -/
theorem State.fileDetection_eq (d : Detection) :
    s.fileDetection d = { s with
      errors := (s.errors.file d s.link.frame).1
      host := { s.host with flags := { s.host.flags with
        logUncorr := s.host.flags.logUncorr || d.kind != .corrected
        logLoss := s.host.flags.logLoss || (s.errors.file d s.link.frame).2.loses } } } := rfl

/-- A completed read changes at most the error record queue and the flags (R10). -/
@[simp] theorem State.fileRead_frame (r : ReadResult) (src : Source) (ch : Option Chan) :
    (s.fileRead r src ch).store = s.store ∧ (s.fileRead r src ch).channels = s.channels ∧
    (s.fileRead r src ch).link = s.link ∧ (s.fileRead r src ch).engine = s.engine ∧
    (s.fileRead r src ch).sparing = s.sparing ∧ (s.fileRead r src ch).maint = s.maint ∧
    (s.fileRead r src ch).patrol = s.patrol ∧ (s.fileRead r src ch).outputs = s.outputs ∧
    (s.fileRead r src ch).freeIndex = s.freeIndex ∧ (s.fileRead r src ch).pending = s.pending := by
  unfold State.fileRead
  split <;> simp [State.fileDetection_eq]

/-- Of the host port a completed read changes the flags alone. -/
theorem State.fileRead_host (r : ReadResult) (src : Source) (ch : Option Chan) :
    ∃ f, (s.fileRead r src ch).host = { s.host with flags := f } := by
  unfold State.fileRead
  split
  · exact ⟨s.host.flags, rfl⟩
  · exact ⟨_, rfl⟩

/-- The queue after a completed read: as it was, or with one filing. -/
theorem State.fileRead_errors (r : ReadResult) (src : Source) (ch : Option Chan) :
    (s.fileRead r src ch).errors = s.errors ∨
      ∃ d : Detection, (s.fileRead r src ch).errors = (s.errors.file d s.link.frame).1 := by
  unfold State.fileRead
  split
  · exact .inl rfl
  · exact .inr ⟨_, rfl⟩

/-! ### Jobs -/

/-- All that the start of a job can be (R111, R127, R130). -/
theorem State.startJob_cases :
    s.startJob = s ∨ ∃ j rest, s.maint.run = none ∧ s.patrol.step = none ∧
      s.maint.queue = j :: rest ∧
      s.startJob = { s with
        maint := { s.maint with run := some j.fresh, queue := rest }
        sparing := { s.sparing with
          retire := if j.kind = .retire then some ⟨j.start, .job, .read⟩ else s.sparing.retire } } := by
  unfold State.startJob
  split
  · next j rest hrun hstep hq =>
    refine .inr ⟨j, rest, hrun, hstep, hq, ?_⟩
    cases hk : j.kind <;> simp [State.setMaint, State.setSparing]
  · exact .inl rfl

@[simp] theorem State.startJob_frame :
    s.startJob.store = s.store ∧ s.startJob.channels = s.channels ∧ s.startJob.link = s.link ∧
    s.startJob.engine = s.engine ∧ s.startJob.errors = s.errors ∧ s.startJob.patrol = s.patrol ∧
    s.startJob.host = s.host ∧ s.startJob.outputs = s.outputs ∧
    s.startJob.freeIndex = s.freeIndex ∧ s.startJob.pending = s.pending := by
  rcases s.startJob_cases with h | ⟨j, rest, -, -, -, h⟩ <;> rw [h] <;> simp

/-- The start of a job keeps the slots and the map. -/
@[simp] theorem State.startJob_spares :
    s.startJob.sparing.slots = s.sparing.slots ∧ s.startJob.sparing.map = s.sparing.map := by
  rcases s.startJob_cases with h | ⟨j, rest, -, -, -, h⟩ <;> rw [h] <;> simp

@[simp] theorem State.resumePatrol_eq :
    s.resumePatrol = { s with patrol := s.patrol.resume s.maint.busy } := rfl

/-- All that leaving YIELDING can be (R146). -/
theorem State.leaveYielding_eq :
    s.leaveYielding = if s.maint.busy = false ∧ s.patrol.phase = .yielding then
      { s with patrol := s.patrol.resume s.maint.busy } else s := rfl

@[simp] theorem State.leaveYielding_frame :
    s.leaveYielding.store = s.store ∧ s.leaveYielding.channels = s.channels ∧
    s.leaveYielding.link = s.link ∧ s.leaveYielding.engine = s.engine ∧
    s.leaveYielding.errors = s.errors ∧ s.leaveYielding.sparing = s.sparing ∧
    s.leaveYielding.maint = s.maint ∧ s.leaveYielding.host = s.host ∧
    s.leaveYielding.outputs = s.outputs ∧ s.leaveYielding.freeIndex = s.freeIndex ∧
    s.leaveYielding.pending = s.pending := by
  rw [State.leaveYielding_eq]
  split <;> simp

@[simp] theorem State.endJob_frame (j : RunningJob) (o : JobOutcome) (k : Option SlotNo) :
    (s.endJob j o k).store = s.store ∧ (s.endJob j o k).channels = s.channels ∧
    (s.endJob j o k).link = s.link ∧ (s.endJob j o k).engine = s.engine ∧
    (s.endJob j o k).errors = s.errors ∧ (s.endJob j o k).host = s.host ∧
    (s.endJob j o k).outputs = s.outputs ∧ (s.endJob j o k).freeIndex = s.freeIndex ∧
    (s.endJob j o k).pending = s.pending ∧ (s.endJob j o k).sparing.slots = s.sparing.slots ∧
    (s.endJob j o k).sparing.map = s.sparing.map := by
  simp [State.endJob]

/-! ### Patrol steps -/

@[simp] theorem State.releaseMark_eq :
    s.releaseMark = { s with store := { s.store with mark := none } } := rfl

@[simp] theorem State.clearRetire_eq :
    s.clearRetire = { s with sparing := { s.sparing with retire := none } } := rfl

/-- Of the store the end of a step changes the claimed-word mark alone (R153). -/
@[simp] theorem State.endStep_frame :
    s.endStep.store = { s.store with mark := none } ∧ s.endStep.channels = s.channels ∧
    s.endStep.link = s.link ∧ s.endStep.engine = s.engine ∧ s.endStep.errors = s.errors ∧
    s.endStep.host = s.host ∧ s.endStep.outputs = s.outputs ∧
    s.endStep.freeIndex = s.freeIndex ∧ s.endStep.pending = s.pending ∧
    s.endStep.sparing.slots = s.sparing.slots ∧ s.endStep.sparing.map = s.sparing.map := by
  simp [State.endStep]

@[simp] theorem State.endRetireJob_frame (r : ReadOutcome) (o : JobOutcome) (k : Option SlotNo) :
    (s.endRetireJob r o k).store = { s.store with mark := none } ∧
    (s.endRetireJob r o k).channels = s.channels ∧ (s.endRetireJob r o k).link = s.link ∧
    (s.endRetireJob r o k).engine = s.engine ∧ (s.endRetireJob r o k).errors = s.errors ∧
    (s.endRetireJob r o k).host = s.host ∧ (s.endRetireJob r o k).outputs = s.outputs ∧
    (s.endRetireJob r o k).freeIndex = s.freeIndex ∧
    (s.endRetireJob r o k).pending = s.pending ∧
    (s.endRetireJob r o k).sparing.slots = s.sparing.slots ∧
    (s.endRetireJob r o k).sparing.map = s.sparing.map := by
  unfold State.endRetireJob
  split <;> simp

@[simp] theorem State.patrolNoSpare_frame (r : ReadResult) :
    (s.patrolNoSpare r).channels = s.channels ∧ (s.patrolNoSpare r).link = s.link ∧
    (s.patrolNoSpare r).engine = s.engine ∧ (s.patrolNoSpare r).errors = s.errors ∧
    (s.patrolNoSpare r).host = s.host ∧ (s.patrolNoSpare r).outputs = s.outputs ∧
    (s.patrolNoSpare r).freeIndex = s.freeIndex ∧ (s.patrolNoSpare r).pending = s.pending ∧
    (s.patrolNoSpare r).store.access = s.store.access ∧
    (s.patrolNoSpare r).store.mem = s.store.mem ∧
    (s.patrolNoSpare r).store.device = s.store.device ∧
    (s.patrolNoSpare r).sparing.slots = s.sparing.slots ∧
    (s.patrolNoSpare r).sparing.map = s.sparing.map := by
  unfold State.patrolNoSpare
  split
  · split <;> simp
  · simp

end Sys2Proof.Machine
end

