-- ==== Sys2Proof/Laws/Store.lean ====
section
/-! SUPPORT. The memory of stored words: what a read gives after a write, and that a write keeps the
canonical form; and what the writes of Machine/Ops.lean do to the words. -/

namespace Sys2Proof.Machine

/-! ### The list of words -/

theorem Place.key_lt_wordCount (p : Place) : p.key < wordCount := by
  cases p with
  | main a => have := a.isLt; simp only [Place.key, wordCount]; omega
  | spare k => have := k.isLt; simp only [Place.key, wordCount]; omega

theorem Place.key_injective {p q : Place} (h : p.key = q.key) : p = q := by
  cases p with
  | main a =>
    cases q with
    | main b => exact congrArg _ (BitVec.eq_of_toNat_eq h)
    | spare k => have := a.isLt; simp only [Place.key] at h; omega
  | spare j =>
    cases q with
    | main b => have := b.isLt; simp only [Place.key] at h; omega
    | spare k =>
      simp only [Place.key] at h
      exact congrArg _ (Fin.ext (by omega))

/-- Every key of the physical words is the key of a place (Table 2-1). -/
theorem Place.exists_key {k : Nat} (h : k < wordCount) : ∃ p : Place, p.key = k := by
  simp only [wordCount] at h
  by_cases hk : k < 8192
  · exact ⟨.main (BitVec.ofNat 13 k), by simp [Place.key, Nat.mod_eq_of_lt hk]⟩
  · exact ⟨.spare ⟨k - 8192, by omega⟩, by simp [Place.key]; omega⟩

/-- A key above every listed key reads the zero word. -/
theorem memRead_of_lt_all {m : List (Nat × StoredWord)} {k : Nat} (h : ∀ e ∈ m, k < e.1) :
    memRead m k = StoredWord.zero := by
  induction m with
  | nil => rfl
  | cons e rest ih =>
    obtain ⟨j, w⟩ := e
    have hj := h (j, w) (by simp)
    simp only [memRead]
    rw [if_neg (by simp only at hj; omega)]
    exact ih (fun e he => h e (by simp [he]))

/-- A write leaves every other key as it was, whatever the list. -/
theorem memRead_memWrite_ne (m : List (Nat × StoredWord)) (w : StoredWord) {j k : Nat} (h : j ≠ k) :
    memRead (memWrite m k w) j = memRead m j := by
  induction m with
  | nil =>
    simp only [memWrite]
    split <;> simp [memRead, h.symm]
  | cons e rest ih =>
    obtain ⟨i, v⟩ := e
    simp only [memWrite]
    split
    · simp only [memRead, ih]
    · split <;> split <;> simp_all [memRead, h.symm]

/-- A written key reads the written word, in a canonical list. -/
theorem memRead_memWrite_self {m : List (Nat × StoredWord)} (hm : memCanonical m) (k : Nat)
    (w : StoredWord) : memRead (memWrite m k w) k = w := by
  obtain ⟨hs, hz⟩ := hm
  induction m with
  | nil =>
    simp only [memWrite]
    split
    · simp_all [memRead]
    · simp [memRead]
  | cons e rest ih =>
    obtain ⟨i, v⟩ := e
    rw [List.pairwise_cons] at hs
    simp only [memWrite]
    split
    · next hik =>
      have : i ≠ k := by omega
      simp only [memRead, if_neg this]
      exact ih hs.2 (fun e he => hz e (by simp [he]))
    · next hik =>
      by_cases hw : w = StoredWord.zero
      · subst hw
        by_cases hi : i = k
        · subst hi
          simp only [if_true]
          exact memRead_of_lt_all (fun e he => hs.1 e he)
        · simp only [if_neg hi, if_true]
          refine memRead_of_lt_all (fun e he => ?_)
          rcases List.mem_cons.1 he with rfl | he
          · simp only; omega
          · have := hs.1 e he; simp only at this; omega
      · simp [hw, memRead]

/-- Reading any key after a write, in a canonical list. -/
theorem memRead_memWrite {m : List (Nat × StoredWord)} (hm : memCanonical m) (j k : Nat)
    (w : StoredWord) : memRead (memWrite m k w) j = if j = k then w else memRead m j := by
  split
  · next h => subst h; exact memRead_memWrite_self hm _ w
  · next h => exact memRead_memWrite_ne m w h

theorem mem_memWrite {m : List (Nat × StoredWord)} {k : Nat} {w : StoredWord}
    {e : Nat × StoredWord} (h : e ∈ memWrite m k w) :
    e ∈ m ∨ (e = (k, w) ∧ w ≠ StoredWord.zero) := by
  induction m with
  | nil =>
    simp only [memWrite] at h
    split at h <;> simp_all
  | cons d rest ih =>
    obtain ⟨i, v⟩ := d
    simp only [memWrite] at h
    split at h
    · rcases List.mem_cons.1 h with rfl | h
      · simp
      · rcases ih h with h | h
        · exact .inl (by simp [h])
        · exact .inr h
    · split at h <;> split at h <;> simp_all <;> grind

/-- Every write of a physical word keeps the canonical form. -/
theorem memWrite_canonical {m : List (Nat × StoredWord)} (hm : memCanonical m) {k : Nat}
    (hk : k < wordCount) (w : StoredWord) : memCanonical (memWrite m k w) := by
  refine ⟨?_, fun e he => ?_⟩
  · obtain ⟨hs, hz⟩ := hm
    induction m with
    | nil => simp only [memWrite]; split <;> simp
    | cons d rest ih =>
      obtain ⟨i, v⟩ := d
      rw [List.pairwise_cons] at hs
      simp only [memWrite]
      split
      · next hik =>
        rw [List.pairwise_cons]
        refine ⟨fun e he => ?_, ih hs.2 (fun e he => hz e (by simp [he]))⟩
        rcases mem_memWrite he with he | ⟨rfl, -⟩
        · exact hs.1 e he
        · exact hik
      · next hik =>
        have htail : ((i, v) :: rest).Pairwise (fun x y => x.1 < y.1) := by
          rw [List.pairwise_cons]; exact hs
        by_cases hi : i = k
        · subst hi
          by_cases hw : w = StoredWord.zero
          · simp only [if_true, hw]; exact hs.2
          · simp only [if_true, if_neg hw, List.pairwise_cons]; exact hs
        · by_cases hw : w = StoredWord.zero
          · simp only [if_neg hi, if_true, hw]; exact htail
          · simp only [if_neg hi, if_neg hw, List.pairwise_cons]
            refine ⟨fun e he => ?_, hs⟩
            rcases List.mem_cons.1 he with rfl | he
            · simp only; omega
            · have := hs.1 e he; simp only at this ⊢; omega
  · rcases mem_memWrite he with he | ⟨rfl, hw⟩
    · exact hm.2 e he
    · exact ⟨hk, hw⟩

theorem reset_memory_canonical : memCanonical State.reset.store.mem :=
  ⟨.nil, fun e he => by cases he⟩

/-! ### The words of a state -/

theorem State.word_putWord {s : State} (hm : memCanonical s.store.mem) (p q : Place)
    (w : StoredWord) : (s.putWord p.key w).word q = if q = p then w else s.word q := by
  simp only [State.word, State.putWord_store, memRead_memWrite hm]
  by_cases h : q = p
  · simp [h]
  · have : q.key ≠ p.key := fun hk => h (Place.key_injective hk)
    simp [h, this]

/-- A write addressed by a main address, in its two effects (R2): the word, and the poison flags. -/
theorem State.writeData_eq (s : State) (a : Addr) (d : Data) :
    s.writeData a d = { s with
      store := { s.store with mem := memWrite s.store.mem (s.resolve a).key (encodeWord d) }
      sparing := { s.sparing with slots := s.sparing.slotsAfterWrite (s.resolve a) } } := by
  unfold State.writeData State.clearPoison Sparing.slotsAfterWrite
  cases s.resolve a <;> rfl

end Sys2Proof.Machine
end

