-- ==== Sys2Proof/Laws/Arbiter.lean ====
section
/-! SUPPORT. The store arbiter: what a grant can do, and the fields it leaves. -/

namespace Sys2Proof.Machine

variable (s : State)

/-! ### The host write report -/

/-- Of the store a report to the patrol step changes the mark and the maintenance wait count. -/
@[simp] theorem State.cancelStep_frame (a : Addr) :
    (s.cancelStep a).channels = s.channels ∧ (s.cancelStep a).link = s.link ∧
    (s.cancelStep a).engine = s.engine ∧ (s.cancelStep a).errors = s.errors ∧
    (s.cancelStep a).host = s.host ∧ (s.cancelStep a).outputs = s.outputs ∧
    (s.cancelStep a).freeIndex = s.freeIndex ∧ (s.cancelStep a).pending = s.pending ∧
    (s.cancelStep a).store.access = s.store.access ∧ (s.cancelStep a).store.mem = s.store.mem ∧
    (s.cancelStep a).store.device = s.store.device ∧
    (s.cancelStep a).store.fill = s.store.fill ∧
    (s.cancelStep a).store.hostWait = s.store.hostWait ∧
    (s.cancelStep a).store.resetAsserted = s.store.resetAsserted ∧
    (s.cancelStep a).sparing.slots = s.sparing.slots ∧
    (s.cancelStep a).sparing.map = s.sparing.map := by
  unfold State.cancelStep State.withdrawMaint
  split
  · split
    · dsimp only
      split <;> simp
    · simp
  · simp

@[simp] theorem State.reportHostWrite_frame (a : Addr) (d : Data) :
    (s.reportHostWrite a d).channels = s.channels ∧ (s.reportHostWrite a d).link = s.link ∧
    (s.reportHostWrite a d).engine = s.engine ∧ (s.reportHostWrite a d).errors = s.errors ∧
    (s.reportHostWrite a d).host = s.host ∧ (s.reportHostWrite a d).outputs = s.outputs ∧
    (s.reportHostWrite a d).freeIndex = s.freeIndex ∧
    (s.reportHostWrite a d).pending = s.pending ∧
    (s.reportHostWrite a d).store.access = s.store.access ∧
    (s.reportHostWrite a d).store.mem = s.store.mem ∧
    (s.reportHostWrite a d).store.device = s.store.device ∧
    (s.reportHostWrite a d).store.fill = s.store.fill ∧
    (s.reportHostWrite a d).store.hostWait = s.store.hostWait ∧
    (s.reportHostWrite a d).store.resetAsserted = s.store.resetAsserted ∧
    (s.reportHostWrite a d).sparing.slots = s.sparing.slots ∧
    (s.reportHostWrite a d).sparing.map = s.sparing.map := by
  simp [State.reportHostWrite]

/-! ### One grant -/

/-- What a grant puts in progress and stores: a read that senses its word and stores nothing, a refused
write that stores nothing, or a write that stores encoded data in one word. -/
def State.GrantEffect (s t : State) : Prop :=
  (∃ tag a, t.store.access = some (.read tag (s.sense a) .wanted) ∧ t.store.mem = s.store.mem ∧
    t.sparing.slots = s.sparing.slots) ∨
  (t.store.access = some (.write .posted none .wanted) ∧ t.store.mem = s.store.mem ∧
    t.sparing.slots = s.sparing.slots ∧
    ∃ p, s.host.posted = some p ∧ s.isProtected p.address.toNat = true) ∨
  (∃ tag a d, t.store.access = some (.write tag (some (s.resolve a).key) .wanted) ∧
    t.store.mem = memWrite s.store.mem (s.resolve a).key (encodeWord d) ∧
    t.sparing.slots = s.sparing.slotsAfterWrite (s.resolve a) ∧
    ((tag = .posted ∧ s.host.posted = some ⟨a, d⟩ ∧ s.isProtected a.toNat = false) ∨
      s.maintClaim = some (.write tag a d))) ∨
  ∃ k d, t.store.access = some (.write .spare (some (Place.spare k).key) .wanted) ∧
    t.store.mem = memWrite s.store.mem (Place.spare k).key (encodeWord d) ∧
    t.sparing.slots = s.sparing.slots ∧ s.maintClaim = some (.spareWrite k d)

/-- What a grant leaves as it was. -/
def State.GrantFrame (s t : State) : Prop :=
  t.channels = s.channels ∧ t.link = s.link ∧ t.engine = s.engine ∧ t.errors = s.errors ∧
    t.outputs = s.outputs ∧ t.freeIndex = s.freeIndex ∧ t.pending = s.pending ∧
    t.sparing.map = s.sparing.map ∧ t.store.device = s.store.device ∧
    t.store.fill = s.store.fill ∧ t.store.resetAsserted = s.store.resetAsserted

@[simp] theorem State.countGrant_mem (c : Claimant) :
    (s.countGrant c).mem = s.store.mem ∧ (s.countGrant c).device = s.store.device ∧
    (s.countGrant c).fill = s.store.fill ∧ (s.countGrant c).mark = s.store.mark ∧
    (s.countGrant c).resetAsserted = s.store.resetAsserted := by
  cases c <;> simp [State.countGrant]

/-- A read senses the words, the map and the slots, and nothing else. -/
theorem State.sense_congr {s t : State} (hm : t.store.mem = s.store.mem)
    (hs : t.sparing.slots = s.sparing.slots) (hp : t.sparing.map = s.sparing.map) (a : Addr) :
    t.sense a = s.sense a := by
  have hr : t.resolve a = s.resolve a := by simp only [State.resolve, hp]
  have hw : ∀ p, t.word p = s.word p := fun p => by simp only [State.word, hm]
  have hq : ∀ p, t.poisonedPlace p = s.poisonedPlace p := fun p => by
    cases p <;> simp only [State.poisonedPlace, hs]
  simp only [State.sense, hr, hw, hq]

theorem State.resolve_congr {s t : State} (hp : t.sparing.map = s.sparing.map) (a : Addr) :
    t.resolve a = s.resolve a := by simp only [State.resolve, hp]

/-- The protected set depends on the contexts, the lookup queue and the engine (R44). -/
theorem State.protectedRanges_congr {s t : State} (hc : t.channels = s.channels)
    (hl : t.link.queue = s.link.queue) (he : t.engine = s.engine) :
    t.protectedRanges = s.protectedRanges := by simp only [State.protectedRanges, hc, hl, he]

theorem State.grantPosted_spec (p : Posted) (hp : s.host.posted = some p) :
    s.GrantEffect (s.grantPosted p) ∧ s.GrantFrame (s.grantPosted p) := by
  unfold State.grantPosted
  split
  · next h =>
    refine ⟨.inr (.inl ⟨rfl, rfl, rfl, p, hp, h⟩), ?_⟩
    simp [State.GrantFrame, State.countRefusal]
  · next h =>
    dsimp only
    have hn : s.isProtected p.address.toNat = false := by simpa using h
    split
    · refine ⟨.inr (.inr (.inl ⟨.posted, p.address, p.data, ?_⟩)), ?_⟩
      · simp [State.writeData_eq, hp, hn]
      · simp [State.GrantFrame, State.writeData_eq]
    · refine ⟨.inr (.inr (.inl ⟨.posted, p.address, p.data, ?_⟩)), ?_⟩
      · simp [State.writeData_eq, hp, hn]
      · simp [State.GrantFrame, State.writeData_eq]

theorem State.grantMaint_spec (m : MaintClaim) (hm : s.maintClaim = some m) :
    s.GrantEffect (s.grantMaint m) ∧ s.GrantFrame (s.grantMaint m) := by
  cases m with
  | plainRead tag a => exact ⟨.inl ⟨tag, a, rfl, rfl, rfl⟩, by simp [State.GrantFrame, State.grantMaint]⟩
  | claimingRead tag a =>
    refine ⟨.inl ⟨tag, a, ?_⟩, ?_⟩ <;> cases tag <;> simp [State.GrantFrame, State.grantMaint]
  | write tag a d =>
    refine ⟨.inr (.inr (.inl ⟨tag, a, d, ?_⟩)), ?_⟩
    · simp [State.grantMaint, State.writeData_eq, hm]
    · simp [State.GrantFrame, State.grantMaint, State.writeData_eq]
  | spareWrite k d =>
    refine ⟨.inr (.inr (.inr ⟨k, d, ?_⟩)), ?_⟩
    · simp [State.grantMaint, hm]
    · simp [State.GrantFrame, State.grantMaint]

/-- The claimant chosen has a claim waiting (Table 2-7). -/
theorem State.claim_of_choose {c : Claimant} (h : s.choose = some c) :
    match c with
    | .lookup => s.lookupClaim.isSome = true
    | .host => s.hostClaim.isSome = true
    | .maint => s.maintClaim.isSome = true := by
  unfold State.choose at h
  cases c <;> simp only at h ⊢ <;> grind

/-- The wait counts play no part in what a claim asks for. -/
theorem State.claims_countGrant (c : Claimant) :
    (s.setStore (s.countGrant c)).hostClaim = s.hostClaim ∧
    (s.setStore (s.countGrant c)).maintClaim = s.maintClaim ∧
    (s.setStore (s.countGrant c)).lookupClaim = s.lookupClaim := by
  cases c <;> exact ⟨rfl, rfl, rfl⟩

theorem State.isProtected_countGrant (c : Claimant) (a : Nat) :
    (s.setStore (s.countGrant c)).isProtected a = s.isProtected a := by
  simp only [State.isProtected]
  rw [State.protectedRanges_congr (s := s)] <;> rfl

/-- An effect from the state with its wait counts changed is one from the state itself. -/
theorem State.GrantEffect.of_counts {s t : State} {c : Claimant}
    (h : (s.setStore (s.countGrant c)).GrantEffect t) : s.GrantEffect t := by
  have hm : (s.setStore (s.countGrant c)).store.mem = s.store.mem := by simp
  have hr : ∀ a, (s.setStore (s.countGrant c)).resolve a = s.resolve a :=
    fun a => State.resolve_congr rfl a
  have hs : ∀ a, (s.setStore (s.countGrant c)).sense a = s.sense a :=
    fun a => State.sense_congr hm rfl rfl a
  simpa only [State.GrantEffect, hm, hr, hs, State.setStore_sparing, State.setStore_host,
    State.isProtected_countGrant, State.claims_countGrant] using h

theorem State.GrantFrame.of_counts {s t : State} {c : Claimant}
    (h : (s.setStore (s.countGrant c)).GrantFrame t) : s.GrantFrame t := by
  simpa [State.GrantFrame] using h

/-- One grant of a claim that waits. -/
theorem State.grant_spec {c : Claimant} (h : s.choose = some c) :
    s.GrantEffect (s.grant c) ∧ s.GrantFrame (s.grant c) := by
  have hc := s.claim_of_choose h
  obtain ⟨hh, hm, hl⟩ := s.claims_countGrant c
  suffices hg : (s.setStore (s.countGrant c)).GrantEffect (s.grant c) ∧
      (s.setStore (s.countGrant c)).GrantFrame (s.grant c) from ⟨hg.1.of_counts, hg.2.of_counts⟩
  unfold State.grant
  dsimp only
  cases c with
  | lookup =>
    obtain ⟨a, ha⟩ := Option.isSome_iff_exists.1 hc
    simp only [ha]
    refine ⟨.inl ⟨.lookup, a, ?_, rfl, rfl⟩, by simp [State.GrantFrame]⟩
    rw [State.sense_congr (s := s) (by simp) rfl rfl]
    rfl
  | host =>
    obtain ⟨k, hk⟩ := Option.isSome_iff_exists.1 hc
    simp only [hk]
    unfold State.grantHost
    split
    · next p hp => exact State.grantPosted_spec _ p hp
    · exact ⟨.inl ⟨.prefetch, _, rfl, rfl, rfl⟩, by simp [State.GrantFrame]⟩
  | maint =>
    obtain ⟨m, hk⟩ := Option.isSome_iff_exists.1 hc
    simp only [hk]
    exact State.grantMaint_spec _ m (by rw [hm, hk])

/-- All that the end of an event can do (R11): nothing, or one grant of a waiting claim to the store,
free until then. -/
theorem State.settle_spec :
    s.settle = s ∨ (s.store.device = .running ∧ s.store.access = none ∧ s.choose ≠ none ∧
      s.GrantEffect s.settle ∧ s.GrantFrame s.settle) := by
  unfold State.settle
  split
  · next h =>
    cases hc : s.choose with
    | none => exact .inl rfl
    | some c => exact .inr ⟨h.1, h.2, by simp, s.grant_spec hc⟩
  · exact .inl rfl

/-- The fields that the end of an event leaves. -/
theorem State.settle_frame : s.GrantFrame s.settle := by
  rcases s.settle_spec with h | ⟨-, -, -, -, h⟩
  · rw [h]; simp [State.GrantFrame]
  · exact h

@[simp] theorem State.settle_channels : s.settle.channels = s.channels := s.settle_frame.1
@[simp] theorem State.settle_link : s.settle.link = s.link := s.settle_frame.2.1
@[simp] theorem State.settle_engine : s.settle.engine = s.engine := s.settle_frame.2.2.1
@[simp] theorem State.settle_errors : s.settle.errors = s.errors := s.settle_frame.2.2.2.1
@[simp] theorem State.settle_outputs : s.settle.outputs = s.outputs := s.settle_frame.2.2.2.2.1
@[simp] theorem State.settle_freeIndex : s.settle.freeIndex = s.freeIndex :=
  s.settle_frame.2.2.2.2.2.1
@[simp] theorem State.settle_pending : s.settle.pending = s.pending :=
  s.settle_frame.2.2.2.2.2.2.1
@[simp] theorem State.settle_map : s.settle.sparing.map = s.sparing.map :=
  s.settle_frame.2.2.2.2.2.2.2.1
@[simp] theorem State.settle_device : s.settle.store.device = s.store.device :=
  s.settle_frame.2.2.2.2.2.2.2.2.1
@[simp] theorem State.settle_fill : s.settle.store.fill = s.store.fill :=
  s.settle_frame.2.2.2.2.2.2.2.2.2.1

/-- A busy store, START_UP, or no waiting claim: the end of an event changes nothing. -/
theorem State.settle_of_no_grant
    (h : s.store.device = .startUp ∨ s.store.access ≠ none ∨ s.choose = none) : s.settle = s := by
  unfold State.settle
  rcases h with h | h | h
  · simp [h]
  · simp [h]
  · simp [h]

/-- After a grant the store is busy. -/
theorem State.settle_access_of_ne (h : s.settle ≠ s) : s.settle.store.access ≠ none := by
  rcases s.settle_spec with h' | ⟨-, -, -, e, -⟩
  · exact absurd h' h
  · rcases e with ⟨_, _, e, _⟩ | ⟨e, _⟩ | ⟨_, _, _, e, _⟩ | ⟨_, _, e, _⟩ <;> simp [e]

/-- One event makes at most one grant: a second end of it changes nothing. -/
@[simp] theorem State.settle_settle : s.settle.settle = s.settle := by
  by_cases h : s.settle = s
  · rw [h, h]
  · exact s.settle.settle_of_no_grant (.inr (.inl (s.settle_access_of_ne h)))

/-- All that the end of a completion with a next claim can do (R87, R137): nothing, with the choice's
claim about to be withdrawn, or what the end of any event does. -/
theorem State.settleTogether_cases (c : Claimant) :
    (s.choose = some c ∧ s.withdrawalWaits c = true ∧ s.settleTogether c = s) ∨
      (¬(s.choose = some c ∧ s.withdrawalWaits c = true) ∧ s.settleTogether c = s.settle) := by
  unfold State.settleTogether
  split
  · next h => exact .inl ⟨h.1, h.2, rfl⟩
  · next h => exact .inr ⟨h, rfl⟩

/-- What such an end leaves. -/
theorem State.settleTogether_frame (c : Claimant) : s.GrantFrame (s.settleTogether c) := by
  rcases s.settleTogether_cases c with ⟨-, -, h⟩ | ⟨-, h⟩
  · rw [h]; simp [State.GrantFrame]
  · rw [h]; exact s.settle_frame

/-- The choice depends on the claims, the counts and MAINT_SHARE alone (Table 2-7). -/
theorem State.choose_congr {s t : State} (hh : t.hostClaim = s.hostClaim)
    (hm : t.maintClaim = s.maintClaim) (hl : t.lookupClaim = s.lookupClaim)
    (hw : t.store.hostWait = s.store.hostWait) (mw : t.store.maintWait = s.store.maintWait)
    (hs : t.patrol.share = s.patrol.share) : t.choose = s.choose := by
  unfold State.choose State.hostDue State.maintDue
  rw [hh, hm, hl, hw, mw, hs]

/-! ### The grant owed -/

/-- When only a step's claiming read waits, the arbiter chooses it (Table 2-7). -/
theorem State.choose_of_onlyTheStepWaits (h : s.onlyTheStepWaits = true) :
    ∃ a, s.maintClaim = some (.claimingRead .patrol a) ∧ s.choose = some .maint := by
  unfold State.onlyTheStepWaits at h
  split at h
  · next a hm =>
    simp only [Bool.and_eq_true, Option.isNone_iff_eq_none] at h
    exact ⟨a, hm, by simp [State.choose, h.1, h.2, hm]⟩
  · cases h

/-- All that an owed grant can do: nothing, or the step's claiming read is in progress, its word sensed and
marked, and the patrol CHECKING (R16, R147). -/
theorem State.grantOwed_cases :
    s.grantOwed = s ∨ (s.store.device = .running ∧ s.store.access = none ∧ ∃ a,
      s.maintClaim = some (.claimingRead .patrol a) ∧ s.choose = some .maint ∧
      s.grantOwed = { s with
        store := { s.store with
          access := some (.read .patrol (s.sense a) .wanted), maintWait := 0, mark := some a }
        patrol := { s.patrol with phase := .checking } }) := by
  unfold State.grantOwed
  split
  · next h =>
    obtain ⟨a, hm, hc⟩ := s.choose_of_onlyTheStepWaits h
    by_cases hg : s.store.device = .running ∧ s.store.access = none
    · refine .inr ⟨hg.1, hg.2, a, hm, hc, ?_⟩
      simp only [State.settle, if_pos hg, hc, State.grant, hm]
      rfl
    · exact .inl (by simp [State.settle, hg])
  · exact .inl rfl

/-- The fields that an owed grant leaves: all but the access, the mark and the wait count of the store, and
the patrol's state. -/
@[simp] theorem State.grantOwed_frame :
    s.grantOwed.channels = s.channels ∧ s.grantOwed.link = s.link ∧
    s.grantOwed.engine = s.engine ∧ s.grantOwed.errors = s.errors ∧
    s.grantOwed.sparing = s.sparing ∧ s.grantOwed.maint = s.maint ∧
    s.grantOwed.host = s.host ∧ s.grantOwed.outputs = s.outputs ∧
    s.grantOwed.freeIndex = s.freeIndex ∧ s.grantOwed.pending = s.pending ∧
    s.grantOwed.store.device = s.store.device ∧ s.grantOwed.store.mem = s.store.mem ∧
    s.grantOwed.store.fill = s.store.fill ∧
    s.grantOwed.store.resetAsserted = s.store.resetAsserted ∧
    s.grantOwed.store.hostWait = s.store.hostWait ∧
    s.grantOwed.patrol.timer = s.patrol.timer ∧ s.grantOwed.patrol.step = s.patrol.step ∧
    s.grantOwed.patrol.enable = s.patrol.enable ∧ s.grantOwed.patrol.share = s.patrol.share ∧
    s.grantOwed.patrol.interval = s.patrol.interval ∧
    s.grantOwed.patrol.retireLimit = s.patrol.retireLimit ∧
    s.grantOwed.patrol.pointer = s.patrol.pointer ∧
    s.grantOwed.patrol.passes = s.patrol.passes := by
  rcases s.grantOwed_cases with h | ⟨-, -, a, -, -, h⟩ <;> simp [h]

/-- START_UP, a busy store, or a step that is not alone in waiting: no grant is owed. -/
theorem State.grantOwed_of_none
    (h : s.store.device = .running → s.store.access = none → s.onlyTheStepWaits = false) :
    s.grantOwed = s := by
  unfold State.grantOwed
  split
  · next hw =>
    refine s.settle_of_no_grant ?_
    by_cases hd : s.store.device = .running
    · exact .inr (.inl fun ha => by simp [h hd ha] at hw)
    · cases hs : s.store.device
      · exact .inl rfl
      · exact absurd hs hd
  · rfl

/-- An owed grant is made once. -/
@[simp] theorem State.grantOwed_grantOwed : s.grantOwed.grantOwed = s.grantOwed := by
  rcases s.grantOwed_cases with h | ⟨-, -, a, -, -, h⟩
  · rw [h, h]
  · exact s.grantOwed.grantOwed_of_none fun _ ha => by simp [h] at ha

end Sys2Proof.Machine
end

