-- ==== Sys2Proof/Laws/Evaluate.lean ====
section
/-! SUPPORT. The lookup queue and the engine: what taking, joining, offering and finishing a slot do, and
the fields they leave. -/

namespace Sys2Proof.Machine

variable (s : State)

/-! ### The offer and the tail of the queue -/

/-- The stall timer after a change of the queue (R61). -/
theorem Link.refreshOffer_eq (l : Link) :
    l.refreshOffer = { l with
      stall := if headDone l.queue = true then some (l.stall.getD { elapsed := 0, expired := false })
        else none } := by
  unfold Link.refreshOffer
  split
  · split
    · next h => rw [h, Option.getD_some, ← h]
    · next h => simp [h]
  · rfl

@[simp] theorem Link.refreshOffer_frame (l : Link) :
    l.refreshOffer.queue = l.queue ∧ l.refreshOffer.frame = l.frame ∧
    l.refreshOffer.enable = l.enable ∧ l.refreshOffer.linkRst = l.linkRst ∧
    l.refreshOffer.timeout = l.timeout := by
  simp [Link.refreshOffer_eq]

/-- After it the timer runs exactly while the head is DONE. -/
theorem Link.refreshOffer_follows (l : Link) :
    l.refreshOffer.stall.isSome = headDone l.refreshOffer.queue := by
  simp only [Link.refreshOffer_eq]
  split
  · next h => simp [h]
  · next h => simpa using h

theorem headDone_append (q : List Slot) (sl : Slot) :
    headDone (q ++ [sl]) = if q = [] then sl.isDone else headDone q := by
  cases q <;> simp [headDone]

/-- Joining the tail of the queue, in a state whose stall timer follows the offer (R53, R61). -/
theorem State.pushSlot_eq (h : s.stallFollowsOffer) (w : BitVec 29) (p : SlotPhase) :
    s.pushSlot w p = { s with link := s.link.joined (requestSlot w p) } := by
  unfold State.pushSlot
  have h' : s.link.stall.isSome = headDone s.link.queue := h
  simp only [State.setLink, Link.refreshOffer_eq, headDone_append, Link.joined, requestSlot,
    requestKind, requestChannel, requestTag]
  by_cases hq : s.link.queue = []
  · have hs : s.link.stall = none := by simpa [hq, headDone] using h'
    simp [hq, hs]
  · cases hst : s.link.stall with
    | none =>
      have : headDone s.link.queue = false := by rw [← h', hst]; rfl
      simp [hq, this]
    | some u =>
      have : headDone s.link.queue = true := by rw [← h', hst]; rfl
      simp [hq, this]

@[simp] theorem State.pushSlot_frame (w : BitVec 29) (p : SlotPhase) :
    (s.pushSlot w p).store = s.store ∧ (s.pushSlot w p).channels = s.channels ∧
    (s.pushSlot w p).engine = s.engine ∧ (s.pushSlot w p).errors = s.errors ∧
    (s.pushSlot w p).sparing = s.sparing ∧ (s.pushSlot w p).maint = s.maint ∧
    (s.pushSlot w p).patrol = s.patrol ∧ (s.pushSlot w p).host = s.host ∧
    (s.pushSlot w p).outputs = s.outputs ∧ (s.pushSlot w p).freeIndex = s.freeIndex ∧
    (s.pushSlot w p).pending = s.pending := by
  simp [State.pushSlot]

/-! ### Taking and finishing a slot -/

/-- A queue from which a slot is taken, split at that slot (R69). -/
theorem takeWaiting_eq_some {q : List Slot} {d : Data} {n : Snapshot} {q' : List Slot}
    (h : takeWaiting q = some (d, n, q')) :
    ∃ pre sl post, q = pre ++ sl :: post ∧ (∀ x ∈ pre, x.isWaiting = false) ∧
      sl.phase = .waiting d n ∧ q' = pre ++ { sl with phase := .reading d n } :: post := by
  induction q generalizing q' with
  | nil => simp [takeWaiting] at h
  | cons sl rest ih =>
    unfold takeWaiting at h
    split at h
    · next d' n' hp =>
      simp only [Option.some.injEq, Prod.mk.injEq] at h
      obtain ⟨rfl, rfl, rfl⟩ := h
      exact ⟨[], sl, rest, rfl, by simp, hp, rfl⟩
    · next hp =>
      split at h
      · next d' n' rest' hr =>
        simp only [Option.some.injEq, Prod.mk.injEq] at h
        obtain ⟨rfl, rfl, rfl⟩ := h
        obtain ⟨pre, y, post, rfl, hpre, hy, rfl⟩ := ih hr
        refine ⟨sl :: pre, y, post, rfl, fun x hx => ?_, hy, rfl⟩
        rcases List.mem_cons.1 hx with rfl | hx
        · unfold Slot.isWaiting
          split
          · next a b hab => exact absurd hab (hp a b)
          · rfl
        · exact hpre x hx
      · simp at h

theorem takeWaiting_eq_none {q : List Slot} :
    takeWaiting q = none ↔ ∀ x ∈ q, x.isWaiting = false := by
  induction q with
  | nil => simp [takeWaiting]
  | cons sl rest ih =>
    unfold takeWaiting
    cases hp : sl.phase <;> simp [Slot.isWaiting, hp] <;>
      cases hr : takeWaiting rest <;> simp_all [Slot.isWaiting]

/-- The slot taken is the first WAITING one. -/
theorem takeWaiting_split {pre post : List Slot} {sl : Slot} {d : Data} {n : Snapshot}
    (hpre : ∀ x ∈ pre, x.isWaiting = false) (hs : sl.phase = .waiting d n) :
    takeWaiting (pre ++ sl :: post) = some (d, n, pre ++ { sl with phase := .reading d n } :: post) := by
  induction pre with
  | nil => simp [takeWaiting, hs]
  | cons x rest ih =>
    have hx := hpre x (by simp)
    have := ih (fun y hy => hpre y (by simp [hy]))
    simp only [List.cons_append, takeWaiting, this]
    cases hp : x.phase <;> simp_all [Slot.isWaiting]

/-- All that taking a slot can be (R69): nothing, or the first WAITING slot becomes READING. -/
theorem State.takeSlot_cases :
    s.takeSlot = s ∨ ∃ pre sl post d n, s.engine = .idle ∧ s.link.queue = pre ++ sl :: post ∧
      (∀ x ∈ pre, x.isWaiting = false) ∧ sl.phase = .waiting d n ∧
      s.takeSlot = { s with
        link := { s.link with queue := pre ++ { sl with phase := .reading d n } :: post }
        engine := .firstRead (startProgress d n) } := by
  unfold State.takeSlot
  split
  · next d n q' he ht =>
    obtain ⟨pre, sl, post, hq, hpre, hs, rfl⟩ := takeWaiting_eq_some ht
    exact .inr ⟨pre, sl, post, d, n, he, hq, hpre, hs, rfl⟩
  · exact .inl rfl

@[simp] theorem State.takeSlot_frame :
    s.takeSlot.store = s.store ∧ s.takeSlot.channels = s.channels ∧
    s.takeSlot.errors = s.errors ∧ s.takeSlot.sparing = s.sparing ∧
    s.takeSlot.maint = s.maint ∧ s.takeSlot.patrol = s.patrol ∧ s.takeSlot.host = s.host ∧
    s.takeSlot.outputs = s.outputs ∧ s.takeSlot.freeIndex = s.freeIndex ∧
    s.takeSlot.pending = s.pending ∧ s.takeSlot.link.stall = s.link.stall ∧
    s.takeSlot.link.linkRst = s.link.linkRst := by
  rcases s.takeSlot_cases with h | ⟨pre, sl, post, d, n, -, -, -, -, h⟩ <;> rw [h] <;> simp

/-- The READING slot nearest the head, and the queue split at it. -/
theorem readingSlot_eq_some {q : List Slot} {ch : Chan} {n : Snapshot}
    (h : readingSlot q = some (ch, n)) :
    ∃ pre sl post d, q = pre ++ sl :: post ∧ (∀ x ∈ pre, x.isReading = false) ∧
      sl.phase = .reading d n ∧ sl.channel = ch := by
  induction q with
  | nil => simp [readingSlot] at h
  | cons sl rest ih =>
    unfold readingSlot at h
    split at h
    · next d' n' hp =>
      simp only [Option.some.injEq, Prod.mk.injEq] at h
      obtain ⟨rfl, rfl⟩ := h
      exact ⟨[], sl, rest, d', rfl, by simp, hp, rfl⟩
    · next hp =>
      obtain ⟨pre, y, post, d, rfl, hpre, hy, hc⟩ := ih h
      refine ⟨sl :: pre, y, post, d, rfl, fun x hx => ?_, hy, hc⟩
      rcases List.mem_cons.1 hx with rfl | hx
      · unfold Slot.isReading
        split
        · next a b hab => exact absurd hab (hp a b)
        · rfl
      · exact hpre x hx

theorem readingSlot_split {pre post : List Slot} {sl : Slot} {d : Data} {n : Snapshot}
    (hpre : ∀ x ∈ pre, x.isReading = false) (hs : sl.phase = .reading d n) :
    readingSlot (pre ++ sl :: post) = some (sl.channel, n) := by
  induction pre with
  | nil => simp [readingSlot, hs]
  | cons x rest ih =>
    have hx := hpre x (by simp)
    have := ih (fun y hy => hpre y (by simp [hy]))
    simp only [List.cons_append, readingSlot, this]
    cases hp : x.phase <;> simp_all [Slot.isReading]

theorem readingSlot_eq_none {q : List Slot} :
    readingSlot q = none ↔ ∀ x ∈ q, x.isReading = false := by
  induction q with
  | nil => simp [readingSlot]
  | cons sl rest ih =>
    unfold readingSlot
    cases hp : sl.phase <;> simp [Slot.isReading, hp] <;> simpa [Slot.isReading] using ih

theorem finishReading_split {pre post : List Slot} {sl : Slot} {d : Data} {n : Snapshot}
    (r : Response) (hpre : ∀ x ∈ pre, x.isReading = false) (hs : sl.phase = .reading d n) :
    finishReading r (pre ++ sl :: post) = pre ++ { sl with phase := .done r } :: post := by
  induction pre with
  | nil => simp [finishReading, hs]
  | cons x rest ih =>
    have hx := hpre x (by simp)
    have := ih (fun y hy => hpre y (by simp [hy]))
    simp only [List.cons_append, finishReading, this]
    cases hp : x.phase <;> simp_all [Slot.isReading]

/-- A slot that is DONE or WAITING at the tail is no READING slot. -/
theorem readingSlot_append {q : List Slot} {sl : Slot} (h : sl.isReading = false) :
    readingSlot (q ++ [sl]) = readingSlot q := by
  induction q with
  | nil => exact readingSlot_eq_none.2 (by simpa using h)
  | cons x rest ih =>
    simp only [List.cons_append, readingSlot, ih]

end Sys2Proof.Machine
end

