-- ==== Sys2Proof/Laws/Host.lean ====
section
/-! SUPPORT. What the host port's shared operations, the lookup completion and the timers can do, said
once for each. -/

namespace Sys2Proof.Machine

variable {s : State}

/-! ## Events -/

theorem State.grantOwed_of_noGrantOwed (h : s.noGrantOwed) : s.grantOwed = s :=
  s.grantOwed_of_none h

theorem State.grantOwed_noGrantOwed : s.grantOwed.noGrantOwed := by
  rcases s.grantOwed_cases with h | ⟨-, -, a, -, -, h⟩
  · intro hd ha
    by_contra hw
    simp only [Bool.not_eq_false] at hw
    obtain ⟨b, hm, hc⟩ := s.grantOwed.choose_of_onlyTheStepWaits hw
    rw [h] at hd ha hw hm hc
    have hg : s.grantOwed = s.settle := by simp [State.grantOwed, hw]
    have : s.settle.store.access ≠ none := by
      simp [State.settle, hd, ha, hc, State.grant, hm, State.grantMaint]
    rw [← hg, h] at this
    exact this ha
  · intro _ ha
    simp [h] at ha

theorem State.event_of_noGrantOwed (h : s.noGrantOwed) (f : State → State) :
    s.event f = .next (f s) := by
  rw [State.event, State.grantOwed_of_noGrantOwed h]

/-- An event finds the owed grant made. -/
@[simp] theorem State.event_grantOwed (f : State → State) : s.grantOwed.event f = s.event f := by
  simp [State.event]

/-! ## Bus and command path -/

theorem State.whenBusFree_of_stretch (h : s.host.stretch ≠ none) (f : State → State) :
    s.whenBusFree f = .next s.grantOwed := by
  simp [State.whenBusFree, State.event, Option.isSome_iff_ne_none, h]

theorem State.whenBusFree_of_free (h : s.host.stretch = none) (f : State → State) :
    s.whenBusFree f = .next (f s.grantOwed) := by
  simp [State.whenBusFree, State.event, h]

theorem State.command_of_startUp (h : s.host.stretch = none) (hd : s.store.device = .startUp)
    (f : State → State) : s.command f = .next (s.answer .starting 0) := by
  have hg : s.grantOwed = s := s.grantOwed_of_none fun hr => by simp [hd] at hr
  simp [State.command, State.writeCommand, State.whenBusFree_of_free h, hg, hd]

theorem State.command_of_running (h : s.host.stretch = none) (hd : s.store.device = .running)
    (f : State → State) : s.command f = .next (f s.grantOwed) := by
  simp [State.command, State.writeCommand, State.whenBusFree_of_free h, hd]

/-- Everything a COMMAND write can do, an owed grant made: nothing while the bus is held, STARTING in
START_UP, and the command's own effect in RUNNING. -/
theorem State.command_cases (f : State → State) :
    (s.host.stretch ≠ none ∧ s.command f = .next s.grantOwed) ∨
    (s.host.stretch = none ∧ s.store.device = .startUp ∧
      s.command f = .next (s.answer .starting 0)) ∨
    (s.host.stretch = none ∧ s.store.device = .running ∧ s.command f = .next (f s.grantOwed)) := by
  by_cases h : s.host.stretch = none
  · cases hd : s.store.device
    · exact .inr (.inl ⟨h, rfl, State.command_of_startUp h hd f⟩)
    · exact .inr (.inr ⟨h, rfl, State.command_of_running h hd f⟩)
  · exact .inl ⟨h, State.whenBusFree_of_stretch h _⟩

/-! ## The table port -/

/-- A discarded prefetch changes no word and frees nothing (R160). -/
theorem State.discardPrefetch_frame :
    s.discardPrefetch.mem = s.store.mem ∧ s.discardPrefetch.device = s.store.device ∧
      s.discardPrefetch.mark = s.store.mark ∧ s.discardPrefetch.fill = s.store.fill ∧
      s.discardPrefetch.maintWait = s.store.maintWait ∧
      s.discardPrefetch.access.isSome = s.store.access.isSome := by
  unfold State.discardPrefetch
  split
  · rename_i h; simp [h]
  · split <;> simp

theorem State.movePointer_eq (a : Addr) :
    s.movePointer a =
      { s with
        store := s.discardPrefetch, host := { s.host with pointer := a, holder := .pending } } := rfl

theorem State.endTableRead_eq (d : Data) :
    s.endTableRead d =
      { s with
        host := { s.host with pointer := s.host.pointer + 1, holder := .pending, stretch := none }
        outputs := { s.outputs with readData := d } } := rfl

theorem State.postWrite_eq (v : Data) :
    s.postWrite v =
      { s with
        store := s.discardPrefetch
        host := { s.host with
          pointer := s.host.pointer + 1, holder := .pending
          posted := some ⟨s.host.pointer, v⟩, stretch := none } } := rfl

/-- What a completed prefetch changes: the filing, PREFETCH_OUTCOME, and, if it is still wanted, the
holder or the end of the stretched read (R161, R162). -/
theorem State.prefetchDone_cases (r : ReadResult) (i : Interest) :
    s.prefetchDone r i =
      let f := s.fileRead r .host none
      let g : State := { f with host := { f.host with outcome := r.outcome.shown } }
      if i = .wanted then
        if g.host.stretch = some .read then g.endTableRead r.data
        else { g with host := { g.host with holder := .full r.data r.outcome } }
      else g := by
  unfold State.prefetchDone State.fillHolder
  by_cases hi : i = .wanted
  · simp only [hi, if_true]
    split
    · rename_i h
      exact (if_pos h).symm
    · rename_i h
      exact (if_neg h).symm
  · simp only [hi, if_false]; rfl

/-! ## The lookup completion -/

/-- A report changes one context record and at most the SUSPENDED flag (R39 to R41). -/
@[simp] theorem State.report_frame (ch : Chan) (p : Progress) (r : Response) :
    (s.report ch p r).store = s.store ∧ (s.report ch p r).link = s.link ∧
      (s.report ch p r).engine = s.engine ∧ (s.report ch p r).errors = s.errors ∧
      (s.report ch p r).sparing = s.sparing ∧ (s.report ch p r).maint = s.maint ∧
      (s.report ch p r).patrol = s.patrol ∧ (s.report ch p r).outputs = s.outputs ∧
      (s.report ch p r).freeIndex = s.freeIndex ∧ (s.report ch p r).pending = s.pending := by
  unfold State.report State.reportFaulty State.reportGood State.raiseSuspended
  dsimp only
  split
  · split <;> simp
  · simp

/-- A lookup completion leaves the store, the error records, the spares, the maintenance engine and the
patrol alone (R80). -/
@[simp] theorem State.completeLookup_frame (ch : Chan) (n : Snapshot) (p : Progress) (y : Int) :
    (s.completeLookup ch n p y).store = s.store ∧ (s.completeLookup ch n p y).errors = s.errors ∧
      (s.completeLookup ch n p y).sparing = s.sparing ∧
      (s.completeLookup ch n p y).maint = s.maint ∧
      (s.completeLookup ch n p y).patrol = s.patrol ∧
      (s.completeLookup ch n p y).outputs = s.outputs ∧
      (s.completeLookup ch n p y).freeIndex = s.freeIndex ∧
      (s.completeLookup ch n p y).pending = s.pending := by
  unfold State.completeLookup
  simp

/-! ## The timers -/

theorem State.checkStall_cases :
    s.checkStall = s ∨
      s.link.stallDue = true ∧
        s.checkStall = { s with
          link := { s.link with stall := s.link.stall.map (fun t => { t with expired := true }) }
          host := { s.host with flags := { s.host.flags with linkStall := true } } } := by
  unfold State.checkStall
  split
  · rename_i h; exact .inr ⟨h, rfl⟩
  · exact .inl rfl

theorem State.checkPatrol_cases :
    s.patrol.due = false ∧ s.checkPatrol = s.settle ∨
      s.patrol.due = true ∧
        s.checkPatrol = ({ s with patrol := s.patrol.startStep } : State).settle := by
  unfold State.checkPatrol
  split
  · rename_i h; exact .inr ⟨h, rfl⟩
  · rename_i h; exact .inl ⟨by simpa using h, rfl⟩

/-- Ticks move the two timers' elapsed times and nothing else (R61, R144). -/
theorem State.passTicks_eq (n : Nat) :
    s.passTicks n = { s with
      link := { s.link with
        stall := s.link.stall.map (fun t => { t with elapsed := min 65535 (t.elapsed + n) }) }
      patrol := { s.patrol with
        timer := s.patrol.timer.map (fun t => max t (min s.patrol.interval.toNat (t + n))) } } :=
  rfl

/-! ## The word of COMMAND -/

/-- A word of COMMAND in RUNNING is the row its code names, or UNKNOWN_COMMAND (R171). -/
theorem exec_decodeCommand (w : Data) (s : State) :
    exec (decodeCommand w) s = s.command (·.takeCommandWord w) := by
  unfold decodeCommand
  cases h : commandOfCode (commandCode w) with
  | none => rfl
  | some k => cases k <;> simp only [State.takeCommandWord, h] <;> rfl

end Sys2Proof.Machine
end

