-- ==== Sys2Proof/Tests/Slice0.lean ====
section
/-! SUPPORT. The author's own tests: ill-formed terms that WellFormed refuses, the spec's worked
examples, and, for every statement with hypotheses, a concrete state and operands that meet them. -/

namespace Sys2Proof.Tests

/-! One theorem after another: each asks the kernel to evaluate, and many at once would each hold a
thread of their own. -/
set_option Elab.async false

open Sys2Proof Sys2Proof.Machine

/-! ## WellFormed refuses -/

theorem test_disturbance_of_no_bit_is_ill_formed :
    Instr.wellFormed (.storedBitDisturbance (.main 5) 0 0) = false := by decide

theorem test_register_write_of_a_row_of_its_own_is_ill_formed :
    Instr.wellFormed (.registerWrite 0x0B 1) = false := by decide

theorem test_unknown_command_with_a_known_code_is_ill_formed :
    Instr.wellFormed (.unknownCommand 0x2100) = false := by decide

theorem test_well_formed_terms :
    Instr.wellFormed (.storedBitDisturbance (.spare 2) 0 8) = true ∧
    Instr.wellFormed (.registerWrite 0x15 7) = true ∧
    Instr.wellFormed (.unknownCommand 0x3100) = true ∧ Instr.wellFormed .delivery = true := by
  decide

/-! ## Small states -/

/-- RUNNING, everything else as after reset. -/
def up : State := { State.reset with
  store := { State.reset.store with device := .running, fill := none }
  host := { State.reset.host with outcome := .none } }

/-- The state after one command. -/
def after (c : Instr) (s : State) : State :=
  match exec c s with
  | .next t => t
  | .fault _ => s
  | .refused _ => s

/-- Channel 0 ACTIVE on the curve of 12.1.2 in bank A, bank B at 100, both ORDER 6. -/
def curve : Context := { Context.reset with
  state := .active
  bankA := ⟨0, 6, .linear⟩
  bankB := ⟨100, 6, .linear⟩
  inOffset := 1024
  clampLo := BitVec.ofInt 16 (-2000)
  clampHi := 30000
  suspendLimit := 3 }

/-- The link open, channel 0 live. -/
def live : State := { up with
  channels := up.channels.set 0 curve
  link := { up.link with enable := true } }

/-- One word of the store replaced. -/
def put (s : State) (k : Nat) (w : StoredWord) : State :=
  { s with store := { s.store with mem := memWrite s.store.mem k w } }

def snap0 : Snapshot := curve.snapshot

/-- A slot of channel 0 whose sample and snapshot are being read. -/
def slotReading (snap : Snapshot) : Slot :=
  { kind := 0, channel := 0, tag := 9, phase := .reading 5000 snap }

def slotWaiting : Slot := { kind := 0, channel := 0, tag := 10, phase := .waiting 5000 snap0 }

def slotDone : Slot :=
  { kind := 1, channel := 2, tag := 3
    phase := .done { disposition := .frameAck, corrected := false, clamped := false, result := 59 } }

/-- A lookup read's result. -/
def readOf (a : Addr) (d : Data) (o : ReadOutcome) : ReadResult :=
  { data := d, outcome := o, syndrome := if o = .corrected then 13 else 0, address := a
    place := .main a }

/-- The progress of SAMPLE 5000 of 12.1.3. -/
def prog : Progress :=
  { x := 3976, offsetClamped := false, index := 3, fraction := 904, anyCorrected := false
    anyFaulty := false }

/-- A lookup with its first read granted, its snapshot given. -/
def reading (snap : Snapshot) (r : ReadResult) : State := { live with
  store := { live.store with access := some (.read .lookup r .wanted) }
  link := { live.link with queue := [slotReading snap] }
  engine := .firstRead prog }

/-- The same lookup in its second read. -/
def reading2 (r : ReadResult) : State := { reading snap0 r with
  engine := .secondRead prog { data := 500, outcome := .clean } }

def nearest : Snapshot := { snap0 with bank := { snap0.bank with mode := .nearest } }

/-- An access in progress and nothing else. -/
def busyWith (a : Access) : State := { up with store := { up.store with access := some a } }

def job (k : JobKind) (start : Addr) (count : Nat) : Job :=
  { kind := k, id := 0, start := start, count := count, value := 77 }

/-- A job running, its next access not yet granted. -/
def running (k : JobKind) (start : Addr) (count : Nat) : State := { up with
  maint := { up.maint with ticketsFree := 3, nextId := 1, run := some (job k start count).fresh } }

def withAccess (s : State) (a : Access) : State :=
  { s with store := { s.store with access := some a } }

/-- A RETIRE of address 4100 with its operation in phase READ. -/
def retiring : State := { running .retire 4100 1 with
  sparing := { up.sparing with
    retire := some { address := 4100, source := .job, phase := .read } } }

/-- The copy of Table 7-7 after the read. -/
def copy255 : RetireCopy := { outcome := .uncorrectable, copy := 255, poison := true, slot := 2 }

/-- The same retire in phase WRITE with slot 2 allocated. -/
def copying : State := { retiring with
  store := { retiring.store with mark := some 4100 }
  sparing := { retiring.sparing with
    retire := some { address := 4100, source := .job, phase := .write copy255 } } }

/-- Every slot DEFECTIVE. -/
def noSpares (s : State) : State :=
  { s with sparing := { s.sparing with slots := Vector.replicate 16 ⟨.defective, false⟩ } }

/-- A patrol step at 3010 in a given state. -/
def stepping (ph : PatrolPhase) (retiring cancel : Bool) : State := { up with
  patrol := { up.patrol with
    enable := true, pointer := 3010, phase := ph
    step := some
      { address := 3010, outcome := none, data := 60, cancel := cancel, retiring := retiring } } }

/-- A patrol that paces with `n` ticks counted of an interval of 100. -/
def pacing (n : Nat) : State := { up with
  patrol := { up.patrol with enable := true, phase := .pacing, timer := some n } }

/-- The head DONE and offered for `n` ticks. -/
def offering (n : Nat) (expired : Bool) : State := { up with
  link := { up.link with
    queue := [slotDone], timeout := 500, stall := some { elapsed := n, expired := expired } } }

/-- Sixteen error records of one kind at addresses 0 to 15. -/
def fullLog (k : ErrorKind) : State := { up with
  errors := { records := (List.range 16).map (fun i =>
    { kind := k, source := .job, address := BitVec.ofNat 13 i, place := .main (BitVec.ofNat 13 i)
      syndrome := 7, channel := none, count := 1, firstFrame := 0, lastFrame := 0 }), loss := 0 } }

/-- Slot 2 MAPPED for address 4100. -/
def spared (poison : Bool) : State := { up with
  sparing := { up.sparing with
    slots := up.sparing.slots.set 2 ⟨.mapped, poison⟩
    map := up.sparing.map.set 0 (some ⟨4100, 2⟩) } }

/-! ## The spec's worked examples, one command each -/

/-- 12.1.1: at power-on DEVICE_STATUS reads 0x7990 and TABLE_PORT_STATUS 0x0005. -/
theorem test_power_on_status :
    (after (.deviceReset .powerOn) up).readRegister 1 = 0x7990 ∧
    (after (.deviceReset .powerOn) up).readRegister 0x10 = 5 := by decide +kernel

/-- R18: while RESET# stays asserted the fill does not run. -/
theorem test_reset_pin_stops_the_fill :
    (after (.deviceReset .pinAsserted) State.reset).store.fill = none := by decide +kernel

theorem test_release_begins_at_address_0 :
    (after .resetRelease (after (.deviceReset .pinAsserted) up)).store.fill = some 0 := by
  decide +kernel

/-- 12.1.1: the fill's last write with ENABLE on gives DEVICE_STATUS 0x1990 and START_DONE. -/
theorem test_fill_end_paces_the_patrol :
    let s := { State.reset with
      store := { State.reset.store with fill := some 8207 }
      patrol := { State.reset.patrol with enable := true } }
    (after .startUpFillWriteCompletion s).readRegister 1 = 0x1990 ∧
    (after .startUpFillWriteCompletion s).readRegister 2 = 1 := by decide +kernel

/-- Right after the end of the fill, with ENABLE on and PATROL_INTERVAL 0. -/
def filled : State :=
  after .startUpFillWriteCompletion { State.reset with
    store := { State.reset.store with fill := some 8207 }
    patrol := { State.reset.patrol with enable := true, interval := 0 } }

/-- 11.3: with PATROL_INTERVAL 0 the fill's end leaves MODE 3, DEVICE_STATUS 0x3990; R11: the step's read
is granted before a tick, and before whatever a command does, be it a register write or an event without
an occasion. -/
theorem test_fill_end_starts_a_step :
    filled.readRegister 1 = 0x3990 ∧ filled.tick.readRegister 1 = 0x4990 ∧
    filled.tick.store.mark = some 0 ∧
    ∀ c ∈ ([.timebaseWrite 50, .enable 0, .requestAcceptance 0, .tablePointerWrite 5, .delivery] :
      List Instr), (after c filled).readRegister 1 = 0x4990 := by decide +kernel

/-- R11: the step's read, granted before the disturbance, does not see it; and it can complete next. -/
theorem test_owed_grant_comes_before_a_disturbance :
    (after .patrolReadCompletion (after (.storedBitDisturbance (.main 0) 1 0) filled)
      ).errors.records = [] ∧
    (after .patrolReadCompletion filled).patrol.pointer = 1 := by decide +kernel

/-- Table 2-5, all four rows: the word holding 1000 with check field 18, disturbed. -/
theorem test_disturbance_reads_of_table_2_5 :
    let s := put up 7 ⟨1000, 18⟩
    let hit (d : Data) (c : BitVec 6) : ReadOutcome × Data :=
      let r := (after (.storedBitDisturbance (.main 7) d c) s).sense 7
      (r.outcome, r.data)
    hit 0 0 = (.clean, 1000) ∧ hit 64 0 = (.corrected, 1000) ∧ hit 0 8 = (.corrected, 1000) ∧
      hit 64 16 = (.uncorrectable, 936) := by decide +kernel

/-- 11.4: the LOOKUP on channel 3 with TAG 10 and SAMPLE 0x1280 passes with PARITY 1, fails with 0. -/
theorem test_request_parity_example :
    let w : BitVec 29 := 0x10000000 ||| 0x00CA1280
    (after (.requestAcceptance w) live).link.queue.map (·.phase) =
        [acceptanceResponse .channelOff 0] ∧
    (after (.requestAcceptance 0x00CA1280) live).link.queue.map (·.phase) =
        [acceptanceResponse .linkParity 0] := by decide +kernel

/-- 12.1.3: SAMPLE 5000 gives i = 3, f = 904, and the first read is of address 3. -/
theorem test_lookup_acceptance_of_12_1_3 :
    let t := after (.requestAcceptance 0x1388) live
    t.engine = .idle ∧ requestParity 0x1388 = true ∧
    (after (.requestAcceptance 0x10001388) live).engine = .firstRead prog ∧
    (after (.requestAcceptance 0x10001388) live).store.access =
      some (.read .lookup (readOf 3 0 .clean) .wanted) := by decide +kernel

/-- 12.3.4: PARITY is 0 for TAG 9, CORRECTED and RESULT 0x44D0. -/
theorem test_response_word_of_12_3 :
    responseWord (slotReading snap0)
      { disposition := .ok, corrected := true, clamped := false, result := 0x44D0 } =
      0x0024244D0#35 ∧
    (after .delivery (offering 0 false)).outputs.delivered.getLsbD 34 =
      (onesCount ((after .delivery (offering 0 false)).outputs.delivered.setWidth 34) % 2 == 1) := by
  decide +kernel

theorem test_stall_expiry_sets_the_flag :
    (after .stallTimerExpiry (offering 20 false)).readRegister 2 = 0x0100 ∧
    (after .stallTimerExpiry (offering 500 true)).readRegister 2 = 0 := by decide +kernel

/-- R61: an interval expiry that lets the stall timer reach LINK_TIMEOUT expires it, and no sooner. -/
theorem test_interval_expiry_expires_the_stall_timer :
    let s (n : Nat) : State := { offering n false with patrol := (pacing 7).patrol }
    (after .patrolIntervalExpiry (s 407)).readRegister 2 = 0x0100 ∧
    (after .patrolIntervalExpiry (s 406)).readRegister 2 = 0 := by decide +kernel

/-- R64, R44: the granted read drains with its bank bound. -/
theorem test_link_reset_drains :
    let t := after .linkRstAssert (reading snap0 (readOf 3 500 .clean))
    t.link.queue = [] ∧ t.engine = .draining 0 snap0.bank false ∧ t.isProtected 64 = true := by
  decide +kernel

theorem test_link_release_opens :
    (after .linkRstAssert live).linkOpen = false ∧
    (after .linkRstRelease (after .linkRstAssert live)).linkOpen = true := by decide +kernel

/-- 12.1.3: e[3] = 500 and e[4] = 1000 give RESULT 941, which LAST_GOOD takes. -/
theorem test_linear_lookup_of_12_1_3 :
    (after .lookupReadCompletion (reading2 (readOf 4 1000 .clean))).channels[0].lastGood = 941 ∧
    (after .lookupReadCompletion (reading2 (readOf 4 1000 .clean))).link.queue.map (·.phase) =
      [.done { disposition := .ok, corrected := false, clamped := false, result := 941 }] := by
  decide +kernel

/-- The same lookup at its first read, with a command waiting. -/
def firstRead (c : Instr) : State :=
  { reading snap0 (readOf 3 500 .clean) with pending := [c] }

/-- R87: the first read completes, the link reset waits, and the second claim is withdrawn ungranted;
with anything else waiting it is granted. -/
theorem test_second_claim_withdrawn_at_link_reset :
    let t := after .lookupReadCompletion (firstRead .linkRstAssert)
    t.store.access = none ∧ t.lookupClaim = some 4 ∧
    (after .linkRstAssert t).engine = .idle ∧ (after .linkRstAssert t).store.access = none ∧
    (after .lookupReadCompletion (firstRead .delivery)).store.access =
      some (.read .lookup (readOf 4 0 .clean) .wanted) := by decide +kernel

/-- Tables 5-4 to 5-7: the interpolated values. -/
theorem test_interpolation_tables :
    let b (k : BitVec 4) : Bank := ⟨0, k, .linear⟩
    interpolate (b 8) 1000 1200 128 = 1100 ∧ interpolate (b 8) 1000 800 128 = 900 ∧
    interpolate (b 4) (BitVec.ofInt 16 (-5000)) (BitVec.ofInt 16 (-4000)) 328 = -4920 ∧
    interpolate (b 10) 20000 20031 63 = 20031 ∧ interpolate (b 10) 20000 19969 63 = 19969 ∧
    interpolate (b 8) 500 501 128 = 501 ∧ interpolate (b 8) 500 499 128 = 500 := by decide +kernel

/-- Table 5-8: the entry that NEAREST reads at ORDER 6 and IN_OFFSET 200. -/
theorem test_nearest_entries_of_table_5_8 :
    let n : Snapshot := { snap0 with bank := ⟨0, 6, .nearest⟩, inOffset := 200 }
    let e (x : Data) := firstEntryIndex n (startProgress x n)
    e 5000 = 5 ∧ e 4600 = 4 ∧ e 4808 = 5 ∧ e 150 = 0 ∧
      (startProgress 150 n).offsetClamped = true := by decide +kernel

/-- R86: after a soft reset the drained read files nothing. -/
theorem test_drained_read_after_soft_reset :
    let s := after (.softReset 0) (reading snap0 (readOf 3 500 .uncorrectable))
    s.engine = .draining 0 snap0.bank false ∧
    (after .drainedReadCompletion s).errors.records = [] := by decide +kernel

theorem test_prefetch_fills_the_holder :
    let s := after (.tablePointerWrite 0xE005) (put up 5 (encodeWord 77))
    s.host.pointer = 5 ∧
    (after .prefetchCompletion s).host.holder = .full 77 .clean ∧
    (after .prefetchCompletion s).readRegister 0x10 = 0x21 := by decide +kernel

theorem test_posted_write_completes :
    let s := after (.tableDataWrite 500) up
    s.word (.main 0) = ⟨500, checkField 500⟩ ∧ s.host.posted.isSome = true ∧
    (after .postedWriteCompletion s).host.posted = none ∧
    (after .postedWriteCompletion s).host.pointer = 1 := by decide +kernel

/-- R44: a write into the active bank is refused and counted. -/
theorem test_protected_write_is_refused :
    let s := after (.tableDataWrite 500) live
    s.word (.main 0) = ⟨0, 0⟩ ∧ s.host.refusedCount = 1 ∧ s.readRegister 2 = 0x200 := by
  decide +kernel

theorem test_fill_word_is_counted :
    let s := withAccess (running .fill 5 2) (.write .fill (some 5) .wanted)
    (after .fillWordCompletion s).maint.run.map (·.wordsDone) = some 1 := by decide +kernel

/-- R137: a word completes, ABORT_JOBS waits, and the job ends with that word counted. -/
theorem test_abort_withdraws_the_next_word :
    let s := { withAccess (running .fill 5 3) (.write .fill (some 5) .wanted) with
      pending := [.abortJobs 0] }
    let t := after (.abortJobs 0) (after .fillWordCompletion s)
    t.maint.completions.map (fun c => (c.outcome, c.wordsDone)) = [(.aborted, 1)] ∧
      t.maint.run = none ∧ t.word (.main 6) = StoredWord.zero := by decide +kernel

theorem test_verify_counts_a_corrected_word :
    let s := withAccess (running .verify 5 1) (.read .verify (readOf 5 9 .corrected) .wanted)
    (after .verifyReadCompletion s).maint.completions.map (·.correctedFound) = [1] := by
  decide +kernel

/-- Table 7-7: the read completes UNCORRECTABLE with data 255 and allocates slot 2. -/
theorem test_retire_read_of_table_7_7 :
    let s := withAccess retiring (.read .retire (readOf 4100 255 .uncorrectable) .wanted)
    let used : Vector SpareSlot 16 :=
      (s.sparing.slots.set 0 ⟨.mapped, false⟩).set 1 ⟨.mapped, false⟩
    (after .retireReadCompletion { s with sparing := { s.sparing with slots := used } }
      ).sparing.retire = some { address := 4100, source := .job, phase := .write copy255 } := by
  decide +kernel

/-- Table 7-7: the host's 500, granted before the spare write, replaces the copy and clears the poison
mark. -/
theorem test_host_write_replaces_the_copy :
    let s := { withAccess copying (.read .prefetch (readOf 0 0 .clean) .stale) with
      host := { copying.host with posted := some ⟨4100, 500⟩ } }
    (after .prefetchCompletion s).sparing.retire.map (·.phase) =
      some (.write { copy255 with copy := 500, poison := false }) := by decide +kernel

theorem test_map_commit_of_table_7_7 :
    let t := after .spareWriteCompletion (withAccess copying (.write .spare (some 8194) .wanted))
    t.resolve 4100 = .spare 2 ∧ t.sparing.slots[2] = ⟨.mapped, true⟩ ∧
      t.maint.completions.map (·.slot) = [some 2] ∧ t.store.mark = none := by decide +kernel

theorem test_interval_expiry_claims :
    (after .patrolIntervalExpiry (pacing 7)).patrol.phase = .checking ∧
    (after .patrolIntervalExpiry (pacing 7)).store.mark = some 0 := by decide +kernel

/-- 9.9: with no retirement due, the corrected 60 is presented as a write-back. -/
theorem test_patrol_read_of_9_9 :
    let s := withAccess (stepping .checking false false)
      (.read .patrol (readOf 3010 60 .corrected) .wanted)
    (after .patrolReadCompletion s).patrol.phase = .repairing ∧
    (after .patrolReadCompletion s).word (.main 3010) = ⟨60, checkField 60⟩ := by decide +kernel

theorem test_write_back_ends_the_step :
    let s := withAccess (stepping .repairing false false) (.write .writeBack (some 3010) .wanted)
    (after .writeBackCompletion s).patrol.pointer = 3011 ∧
    (after .writeBackCompletion s).patrol.phase = .pacing := by decide +kernel

theorem test_table_data_read_stretches :
    (after .tableDataRead up).ready = false ∧
    (after .prefetchCompletion (after .tableDataRead up)).ready = true := by decide +kernel

theorem test_status_clear_bit :
    let s := { up with host := { up.host with refusedCount := 9 } }
    (after (.tablePortStatusClear 0x0080) s).host.refusedCount = 0 ∧
    (after (.tablePortStatusClear 0xFF7F) s).host.refusedCount = 9 := by decide +kernel

theorem test_int_status_write_one_to_clear :
    let s := { up with host := { up.host with
      flags := { Flags.clear with startDone := true, linkStall := true } } }
    (after (.intStatusWrite 1) s).readRegister 2 = 0x0100 := by decide +kernel

theorem test_int_enable_takes_eleven_bits :
    (after (.intEnableWrite 0xFFFF) up).readRegister 3 = 0x07FF := by decide +kernel

/-- R169: index 13 written with ERROR_HEAD selected gives index 5. -/
theorem test_win_addr_of_r169 :
    (after (.winAddrWrite 0x400D) up).readRegister 0x12 = 0x4005 := by decide +kernel

/-- R99: an empty queue reads 0; the index advances from 7 to 0. -/
theorem test_win_data_read_wraps :
    (after .winDataRead (after (.winAddrWrite 0x4007) up)).readRegister 0x12 = 0x4000 := by
  decide +kernel

/-- R181: 0x0208 in field 2 writes ORDER 8 with NEAREST and reads back 0x0008. -/
theorem test_win_data_write_of_r181 :
    let t := after (.winDataWrite 0x0208) (after (.winAddrWrite 2) up)
    (after (.winAddrWrite 2) t).readRegister 0x13 = 8 ∧ t.readRegister 0x14 = 0 ∧
      t.readRegister 0x12 = 3 := by decide +kernel

theorem test_timebase_range :
    (after (.timebaseWrite 0x0032) up).readRegister 6 = 50 ∧
    (after (.timebaseWrite 101) up).readRegister 6 = 25 ∧
    (after (.timebaseWrite 7) up).readRegister 6 = 25 := by decide +kernel

/-- 12.1.1: PATROL_CTRL 0x0841; a MAINT_SHARE of 0 is not taken (R14). -/
theorem test_patrol_ctrl_write :
    (after (.patrolCtrlWrite 0x0841) State.reset).readRegister 7 = 0x0841 ∧
    (after (.patrolCtrlWrite 0x0041) State.reset).readRegister 7 = 0x0841 ∧
    (after (.patrolCtrlWrite 0x0841) State.reset).readRegister 1 = 0x7990 := by decide +kernel

theorem test_patrol_interval_at_the_elapsed_time :
    (after (.patrolIntervalWrite 7) (pacing 7)).patrol.phase = .checking ∧
    (after (.patrolIntervalWrite 8) (pacing 7)).patrol.phase = .pacing := by decide +kernel

theorem test_link_ctrl_write : (after (.linkCtrlWrite 0xFFFE) live).linkOpen = false := by
  decide +kernel

theorem test_link_timeout_at_the_elapsed_time :
    (after (.linkTimeoutWrite 20) (offering 20 false)).readRegister 2 = 0x0100 ∧
    (after (.linkTimeoutWrite 21) (offering 20 false)).readRegister 2 = 0 := by decide +kernel

theorem test_register_write_of_job_arguments :
    (after (.registerWrite 0x16 65) up).readRegister 0x16 = 65 ∧
    after (.registerWrite 0x09 65) up = up := by decide +kernel

/-- 12.1.1: ENABLE in START_UP is refused with STARTING; 12.1.3: taken in RUNNING. -/
theorem test_enable :
    (after (.enable 0) State.reset).readRegister 5 = 1 ∧
    (after (.enable 3) up).channels[3].state = .active ∧
    (after (.enable 3) up).isProtected 16 = true := by decide +kernel

theorem test_enable_meets_a_fill :
    (after (.enable 0) (running .fill 16 1)).readRegister 5 = 3 ∧
    (after (.enable 0) (running .fill 17 1)).readRegister 5 = 0 := by decide +kernel

theorem test_disable : (after (.disable 0) live).isProtected 0 = false := by decide +kernel

theorem test_resume_needs_suspended : (after (.resume 0) live).readRegister 5 = 2 := by
  decide +kernel

/-- R37: a frame mark commits the armed bank. -/
theorem test_arm_then_frame :
    let t := after (.requestAcceptance 0x14000000) (after (.arm 0) live)
    t.channels[0].activeBank = .b ∧ t.channels[0].swapFrame = 1 ∧ t.readRegister 2 = 0x20 := by
  decide +kernel

theorem test_disarm_unarmed : (after (.disarm 0) live).readRegister 5 = 2 := by decide +kernel

def args (s : State) (a b c : Data) : State :=
  { s with maint := { s.maint with argA := a, argB := b, argC := c } }

/-- 12.1.3: VERIFY of 65 words is accepted with ID 0. -/
theorem test_verify_command :
    let t := after (.verify 0) (args up 0 65 0)
    t.readRegister 5 = 0 ∧ t.maint.run.map (·.job.count) = some 65 ∧ t.maint.ticketsFree = 3 := by
  decide +kernel

theorem test_fill_command_over_a_live_bank :
    (after (.fill 0) (args live 64 1 0)).readRegister 5 = 3 ∧
    (after (.fill 0) (args live 65 1 0)).readRegister 5 = 0 ∧
    (after (.fill 0) (args up 8191 2 0)).readRegister 5 = 5 := by decide +kernel

theorem test_retire_command_bounds :
    (after (.retire 0) (args up 8192 0 0)).readRegister 5 = 5 ∧
    (after (.retire 0) (args up 8191 0 0)).store.mark = some 8191 := by decide +kernel

/-- R136: the granted word's job is marked stopping, the queued one gets its record. -/
theorem test_abort_jobs :
    let s := after (.verify 0) (after (.verify 0) (args up 0 65 0))
    let t := after (.abortJobs 0) s
    t.maint.run.map (·.stopping) = some true ∧ t.maint.completions.map (·.id) = [1] := by
  decide +kernel

theorem test_pop_error : (after (.popError 0) (fullLog .corrected)).errors.records.length = 15 ∧
    (after (.popError 0) up).readRegister 5 = 6 := by decide +kernel

theorem test_pop_completion :
    let s := { up with maint := { up.maint with
      ticketsFree := 3, completions := [{ (job .retire 5 1).abortedRecord with id := 9 }] } }
    (after (.popCompletion 0) s).readRegister 5 = 0x0900 ∧
    (after (.popCompletion 0) s).maint.ticketsFree = 4 := by decide +kernel

theorem test_clear_loss :
    (after (.clearLoss 0) { up with errors := { records := [], loss := 255 } }).readRegister 0x18
      = 0 := by decide +kernel

/-- R21: the words and the map stay at a soft reset. -/
theorem test_soft_reset_keeps_words :
    let t := after (.softReset 0) (put (spared true) 8194 (encodeWord 500))
    (t.sense 4100).outcome = .poisoned ∧ (t.sense 4100).data = 500 := by decide +kernel

theorem test_unknown_command : (after (.unknownCommand 0x3100) up).readRegister 5 = 7 := by
  decide +kernel

/-- Table 11-12, and R171: bits 7–4 of a channel command are ignored. -/
theorem test_command_codes :
    decodeCommand 0x0103 = .enable 0x03 ∧ decodeCommand 0x2200 = .clearLoss 0 ∧
    decodeCommand 0x3000 = .softReset 0 ∧ decodeCommand 0x0600 = .unknownCommand 0x0600 ∧
    decodeCommand 0 = .unknownCommand 0 ∧
    (after (.registerWrite 4 0x01F3) up).channels[3].state = .active := by decide +kernel

/-- 11.3.1: DEVICE_STATUS 0xB7E2. -/
theorem test_device_status_of_11_3_1 :
    let s := { stepping .claiming false false with
      maint := { up.maint with queue := [job .fill 5 1] }
      link := { up.link with queue := [slotDone, slotDone] }
      errors := { records := (fullLog .corrected).errors.records.take 3, loss := 0 }
      sparing := { up.sparing with
        slots := (((up.sparing.slots.set 0 ⟨.mapped, false⟩).set 1 ⟨.mapped, false⟩).set 2
          ⟨.defective, false⟩) } }
    s.readRegister 1 = 0xB7E2 := by decide +kernel

/-- An idle step with both timers stopped changes nothing. -/
theorem test_idle_step : up.tick = up := by decide +kernel

/-! ## Witnesses: states and operands that meet each statement's hypotheses, clause by clause -/

/-- EmptyQueueLetsOneTickPass: both timers stopped, and one tick short of the interval or at it. -/
theorem witness_empty_queue :
    (up.pending = [] ∧ up.patrol.timer = none ∧ up.link.stall = none ∧ up.choose = none) ∧
    ((pacing 98).pending = [] ∧ (pacing 98).patrol.phase = .pacing ∧
      (pacing 98).patrol.timer = some 98 ∧ 98 + 1 < (pacing 98).patrol.interval.toNat) ∧
    ((pacing 99).patrol.phase = .pacing ∧ (pacing 99).patrol.timer = some 99 ∧
      (pacing 99).patrol.interval.toNat ≤ 99 + 1) := by decide +kernel

/-- EveryCommandCompletes: a state with a grant owed, by a claim alone on a free store, and one without. -/
theorem witness_owed_grant :
    (¬filled.noGrantOwed ∧ filled.maintClaim = some (.claimingRead .patrol 0) ∧
      filled.pending = []) ∧ up.noGrantOwed ∧ State.reset.noGrantOwed := by decide +kernel

def filling (k : Nat) (enable : Bool) (interval : BitVec 16) : State := { State.reset with
  store := { State.reset.store with fill := some k }
  patrol := { State.reset.patrol with enable := enable, interval := interval } }

/-- DeviceResetSetsEveryBlock: a pin reset with the fill at word 5 keeps word 6. -/
theorem witness_device_reset :
    let s := put (filling 5 false 100) 6 (encodeWord 9)
    memCanonical s.store.mem ∧ s.store.fill ≠ some (Place.main 6).key ∧ s.store.access = none ∧
      s.word (.main 6) ≠ StoredWord.zero := by decide +kernel

/-- StartUpFillClearsTheStore: RESET# asserted and not, the first, the last but one and the last fill
write, and the three ways the patrol starts. -/
theorem witness_start_up_fill :
    (let s := after (.deviceReset .pinAsserted) up;
      s.store.resetAsserted = true ∧ s.noGrantOwed) ∧
    (State.reset.store.resetAsserted = false ∧ State.reset.noGrantOwed) ∧
    (∀ q ∈ ([(0, false, 100), (8206, false, 100), (8207, false, 100), (8207, true, 100),
        (8207, true, 0)] : List (Nat × Bool × BitVec 16)),
      let s := filling q.1 q.2.1 q.2.2
      s.store.device = .startUp ∧ s.store.fill = some q.1 ∧ q.1 < 8208 ∧
        memCanonical s.store.mem ∧ s.startUpQuiet ∧
        ∀ n : SlotNo, s.sparing.slots[n].state = .free) :=
  ⟨by decide +kernel, by decide +kernel, by decide +kernel⟩

/-- FilledWordsStayZero, at the fill's last write, which completes it. -/
theorem witness_filled_words :
    let s := filling 8207 false 100
    memCanonical s.store.mem ∧ s.startUpQuiet ∧ s.store.device = .startUp ∧
      s.store.fill = some 8207 ∧ (after .startUpFillWriteCompletion s).store.device = .running := by
  decide +kernel

theorem witness_filled_words_are_zero (p : Place) :
    (filling 8207 false 100).word p = { data := 0, check := 0 } := rfl

/-- ReadSensesTheResolvedWord: a main word, a clear and a poisoned spare, and Table 2-5's syndromes. -/
theorem witness_read_senses :
    up.sparing.wf ∧ (spared true).sparing.wf ∧ (spared false).sparing.wf ∧
    (∀ e ∈ up.sparing.entries, e.address ≠ 4100) ∧
    (⟨4100, 2⟩ : MapEntry) ∈ (spared true).sparing.entries ∧
    ((spared true).sense 4100).place = .spare 2 ∧ (spared true).sparing.slots[2].poison = true ∧
    (spared false).sparing.slots[2].poison = false ∧
    syndromeOf ⟨1000, 18⟩ = 0 ∧ syndromeOf ⟨1000, 26⟩ = 8 ∧ syndromeOf ⟨936, 18⟩ = 22 ∧
    syndromeOf ⟨936, 2⟩ = 6 := by decide +kernel

/-- DisturbedBitsReadByTheirNumber: none, one, two and three disturbed bits. -/
theorem witness_disturbed_bits :
    (memCanonical (put up 7 (encodeWord 1000)).store.mem ∧
      (put up 7 (encodeWord 1000)).noGrantOwed) ∧
    onesCount (0 : BitVec 16) + onesCount (0 : BitVec 6) = 0 ∧
    onesCount (64 : BitVec 16) + onesCount (0 : BitVec 6) = 1 ∧
    onesCount (64 : BitVec 16) + onesCount (16 : BitVec 6) = 2 ∧
    onesCount (7 : BitVec 16) + onesCount (0 : BitVec 6) = 3 := by decide +kernel

/-- The three claimants waiting together on a free store, with the two wait counts given. -/
def claiming (l h m : Bool) (hw mw : Nat) : State := { live with
  store := { live.store with hostWait := hw, maintWait := mw }
  link := { live.link with queue := if l then [slotReading snap0] else [] }
  engine := if l then .firstRead prog else .idle
  host := { live.host with holder := if h then .pending else .empty }
  maint := if m then (running .verify 5 2).maint else live.maint }

/-- GrantFollowsTheOrder: nobody, host due at 4, maintenance due at MAINT_SHARE, lookup below both,
host alone and maintenance alone; and a busy store and START_UP. -/
theorem witness_grant_order :
    (∀ q ∈ ([(false, false, false, 0, 0), (true, true, true, 4, 8), (true, true, true, 3, 8),
        (true, true, true, 3, 7), (false, true, true, 0, 0), (false, false, true, 0, 0)] :
        List (Bool × Bool × Bool × Nat × Nat)),
      let s := claiming q.1 q.2.1 q.2.2.1 q.2.2.2.1 q.2.2.2.2
      s.store.device = .running ∧ s.store.access = none ∧ s.hostClaim.isSome = q.2.1 ∧
        s.maintClaim.isSome = q.2.2.1 ∧ s.lookupClaim.isSome = q.1 ∧ s.host.posted = none ∧
        s.patrol.share.toNat = 8) ∧
    (reading snap0 (readOf 3 500 .clean)).store.access ≠ none ∧
    State.reset.store.device = .startUp := by decide +kernel

/-- GrantFollowsTheOrder: the choice's claim about to be withdrawn, by each of the three commands, and a
withdrawal of a claim that is not the choice. -/
theorem witness_settle_together :
    (∀ c ∈ ([.linkRstAssert, .softReset 0] : List Instr),
      let s := { claiming true false true 0 0 with pending := [c] }
      s.choose = some .lookup ∧ s.withdrawalWaits .lookup = true) ∧
    (let s := { claiming false false true 0 0 with pending := [.abortJobs 0] };
      s.choose = some .maint ∧ s.withdrawalWaits .maint = true) ∧
    (let s := { claiming true false true 0 8 with pending := [.linkRstAssert] };
      s.choose = some .maint ∧ s.withdrawalWaits .maint = false) := by decide +kernel

/-- GrantedAccessesDoWhatTheirClaimsAsk: each kind of claim, granted. -/
theorem witness_granted_claims :
    (let s := claiming true true true 3 7;
      s.choose = some .lookup ∧ s.lookupClaim = some 3) ∧
    (let s := claiming true true true 4 8;
      s.choose = some .host ∧ s.host.posted = none) ∧
    (let s := claiming true true true 3 8;
      s.choose = some .maint ∧ s.maintClaim = some (.plainRead .verify 5)) ∧
    (retiring.store.access = none ∧ retiring.choose = some .maint ∧
      retiring.maintClaim = some (.claimingRead .retire 4100)) ∧
    (let s := stepping .claiming false false;
      s.choose = some .maint ∧ s.maintClaim = some (.claimingRead .patrol 3010)) ∧
    (let s := running .fill 5 2;
      s.store.device = .running ∧ s.store.access = none ∧ memCanonical s.store.mem ∧
        s.choose = some .maint ∧ s.maintClaim = some (.write .fill 5 77)) ∧
    (copying.choose = some .maint ∧ copying.maintClaim = some (.spareWrite 2 255)) := by
  decide +kernel

def posting (s : State) (a : Addr) : State :=
  { s with host := { s.host with posted := some ⟨a, 500⟩ } }

/-- PostedWriteIsTakenRefusedOrReported: the last protected address and the next one; the claimed word
of a retire in phase WRITE, of a step with its write-back waiting, and of a step's retire. -/
theorem witness_posted_writes :
    (∀ s ∈ ([posting live 64, posting live 65, posting copying 4100,
        posting (stepping .repairing false false) 3010,
        posting (stepping .repairing true false) 3010] : List State),
      s.store.device = .running ∧ s.store.access = none ∧ memCanonical s.store.mem ∧
        s.choose = some .host) ∧
    (posting live 64).isProtected 64 = true ∧ (posting live 65).isProtected 65 = false ∧
    (posting live 65).store.mark ≠ some 65 ∧
    ((posting copying 4100).isProtected 4100 = false ∧
      (posting copying 4100).store.mark = some 4100 ∧ (posting copying 4100).patrol.step = none) ∧
    ((stepping .repairing false false).isProtected 3010 = false ∧
      (stepping .repairing false false).patrol.step.any (·.address == 3010) = true) := by
  decide +kernel

/-- The marked step, whose claimed word is posted to. -/
theorem witness_posted_write_cancels_a_step :
    let s := posting { stepping .repairing false false with
      store := { up.store with mark := some 3010 } } 3010
    s.store.device = .running ∧ s.store.access = none ∧ memCanonical s.store.mem ∧
      s.choose = some .host ∧ s.isProtected 3010 = false ∧ s.store.mark = some 3010 ∧
      s.patrol.phase = .repairing ∧
      s.patrol.step = some
        { address := 3010, outcome := none, data := 60, cancel := false, retiring := false } := by
  decide +kernel

/-- The claimed word posted to with a retire of it still in READ, and with a step's retire in WRITE. -/
theorem witness_posted_write_on_a_claimed_word :
    (let s := posting { retiring with store := { up.store with mark := some 4100 } } 4100;
      s.store.device = .running ∧ s.store.access = none ∧ memCanonical s.store.mem ∧
        s.choose = some .host ∧ s.isProtected 4100 = false ∧ s.store.mark = some 4100 ∧
        s.sparing.retire.map (·.phase) = some .read ∧ s.patrol.step = none) ∧
    (let s := posting { stepping .repairing true false with
        store := { up.store with mark := some 3010 }
        sparing := { up.sparing with
          retire := some { address := 3010, source := .patrol, phase := .write copy255 } } } 3010;
      s.choose = some .host ∧ s.isProtected 3010 = false ∧ s.store.mark = some 3010 ∧
        s.patrol.step.map (fun st => (st.address, st.retiring)) = some (3010, true)) := by
  decide +kernel

/-- WordsChangeOnlyByWritesAndDisturbance: a posted write changes its word at its grant, the store free
or freed by the completion at the front of the queue. -/
theorem witness_words_change :
    memCanonical up.store.mem ∧
    (after (.tableDataWrite 500) up).word (.main 0) ≠ up.word (.main 0) ∧
    (let a : Access := .read .prefetch (readOf 0 0 .clean) .stale
      let s := posting (busyWith a) 9
      .prefetchCompletion ∈ a.completions ∧
        (after .prefetchCompletion s).word (.main 9) ≠ s.word (.main 9)) := by decide +kernel

theorem up_maintSound : up.maintSound := by
  refine ⟨by decide +kernel, by decide +kernel, by decide +kernel, ?_, ?_, ?_⟩
  · simp [State.retireOwned, up, State.reset]
  · simp [State.markOwned, up, State.reset]
  · simp [State.accessOwned, up, State.reset]

theorem live_maintSound : live.maintSound := by
  refine ⟨by decide +kernel, by decide +kernel, by decide +kernel, ?_, ?_, ?_⟩
  · simp [State.retireOwned, live, up, State.reset]
  · simp [State.markOwned, live, up, State.reset]
  · simp [State.accessOwned, live, up, State.reset]

/-- The pointer at the last word of a live bank. -/
def atBankEnd : State := { live with host := { live.host with pointer := 64 } }

/-- ProtectedWordsKeepTheirValue: a write refused on the last word of a live bank. -/
theorem witness_protected_words :
    (memCanonical atBankEnd.store.mem ∧ atBankEnd.store.device = .running ∧
      atBankEnd.fillsUnprotected ∧ atBankEnd.maint.jobsWf ∧ atBankEnd.sparing.wf ∧
      (after (.tableDataWrite 500) atBankEnd).isProtected 64 = true) ∧ atBankEnd.startUpQuiet :=
  ⟨by decide +kernel, by decide +kernel⟩

theorem atBankEnd_maintSound : atBankEnd.maintSound := by
  refine ⟨by decide +kernel, by decide +kernel, by decide +kernel, ?_, ?_, ?_⟩
  · simp [State.retireOwned, atBankEnd, live, up, State.reset]
  · simp [State.markOwned, atBankEnd, live, up, State.reset]
  · simp [State.accessOwned, atBankEnd, live, up, State.reset]

/-- The link's hypotheses, for a state with the link open. -/
theorem witness_link_open :
    (live.linkOpen = true ∧ live.stallFollowsOffer ∧ live.noGrantOwed) ∧
    (up.linkOpen = false ∧ up.noGrantOwed) ∧
    -- an odd word, kinds 2 and 3, a frame mark, LOOKUPs on channels 0 and 15
    onesCount (0x00CA1280 : BitVec 29) % 2 = 1 ∧
    (onesCount (0x18000000 : BitVec 29) % 2 = 0 ∧
      ((0x18000000 : BitVec 29).extractLsb' 26 2).toNat = 2) ∧
    (onesCount (0x0C000000 : BitVec 29) % 2 = 0 ∧
      ((0x0C000000 : BitVec 29).extractLsb' 26 2).toNat = 3) ∧
    (onesCount (0x14000000 : BitVec 29) % 2 = 0 ∧
      (0x14000000 : BitVec 29).extractLsb' 26 2 = 1) ∧
    (onesCount (0x10001388 : BitVec 29) % 2 = 0 ∧
      (0x10001388 : BitVec 29).extractLsb' 26 2 = 0 ∧
      ((0x10001388 : BitVec 29).extractLsb' 22 4).toNat = 0) ∧
    (onesCount (0x03C00000 : BitVec 29) % 2 = 0 ∧ (0x03C00000 : BitVec 29).extractLsb' 26 2 = 0 ∧
      ((0x03C00000 : BitVec 29).extractLsb' 22 4).toNat = 15) ∧
    live.channels[0].state = .active ∧ live.channels[15].state = .disabled := by decide +kernel

/-- The frame mark with a channel armed and the LOOKUP on a SUSPENDED one. -/
theorem witness_link_channels :
    let s := after (.arm 15) { live with
      channels := live.channels.set 0 { curve with state := .suspended } }
    s.linkOpen = true ∧ s.stallFollowsOffer ∧ s.noGrantOwed ∧ s.channels[15].armed = true ∧
      s.channels[0].state = .suspended ∧ (∀ ch : Chan, live.channels[ch].armed = false) := by
  decide +kernel

/-- EngineTakesTheWaitingSlotNearestTheHead: behind a DONE slot, and with nothing to take. -/
theorem witness_take_slot :
    let s := { live with link := { live.link with queue := [slotDone, slotWaiting] } }
    s.engine = .idle ∧ s.link.queue = [slotDone] ++ slotWaiting :: [] ∧
      (∀ x ∈ [slotDone], x.isWaiting = false) ∧
      slotWaiting.phase = .waiting 5000 snap0 ∧ snap0.bank.order.toNat ≤ 10 ∧
      (∀ x ∈ live.link.queue, x.isWaiting = false) ∧
      (reading snap0 (readOf 3 500 .clean)).engine ≠ .idle := by decide +kernel

/-- DeliveryHandsOverTheHeadOnce: a DONE head, and a queue whose head is still read. -/
theorem witness_delivery :
    (offering 0 false).link.queue = slotDone :: [] ∧ (offering 0 false).noGrantOwed ∧
    slotDone.phase = .done
      { disposition := .frameAck, corrected := false, clamped := false, result := 59 } ∧
    headDone (reading snap0 (readOf 3 500 .clean)).link.queue = false ∧
    headDone up.link.queue = false ∧ up.noGrantOwed := by decide +kernel

/-- LinkResetDiscardsEverySlot: an idle engine, a granted read, and a claim still waiting. -/
theorem witness_link_reset :
    (live.noGrantOwed ∧ live.engineAgrees ∧ live.engine.evaluating = false) ∧
    (let s := reading snap0 (readOf 3 500 .clean);
      s.noGrantOwed ∧ s.engineAgrees ∧ s.engine.evaluating = true ∧
        s.store.access = some (.read .lookup (readOf 3 500 .clean) .wanted)) ∧
    (let s := withAccess (reading2 (readOf 3 500 .clean)) (.write .posted none .wanted);
      s.noGrantOwed ∧ s.engineAgrees ∧ s.accessOf .lookup = false ∧
        s.engine = .secondRead prog { data := 500, outcome := .clean } ∧
        readingSlot s.link.queue = some (0, snap0)) := by decide +kernel

/-- The head offered for 411 ticks of 500, and a patrol that paces with `n` ticks counted of 100. -/
def offeringAndPacing (n : Nat) : State := { offering 411 false with patrol := (pacing n).patrol }

/-- TimersExpireAtTheirSettings: the stall timer short of its timeout and at it, stopped, off and
expired, with the interval timer stopped, one tick short of its interval then and at it; the patrol
pacing and off; and new settings at the elapsed time and one above it. -/
theorem witness_timers :
    ((offering 20 false).noGrantOwed ∧ (offering 500 false).noGrantOwed ∧
      (offering 20 false).link.stall = some { elapsed := 20, expired := false } ∧
      (offering 20 false).link.timeout ≠ 0 ∧ 20 ≤ (offering 20 false).link.timeout.toNat ∧
      500 ≤ (offering 500 false).link.timeout.toNat) ∧
    ((offering 20 false).patrol.timer = none ∧
      (∀ n : Nat, n ∈ [10, 11] →
        let s := offeringAndPacing n
        s.noGrantOwed ∧ s.link.stall = some { elapsed := 411, expired := false } ∧ s.link.timeout.toNat = 500 ∧
          s.patrol.phase = .pacing ∧ s.patrol.timer = some n ∧ s.patrol.interval.toNat = 100) ∧
      10 + (500 - 411) < 100 ∧ 100 ≤ 11 + (500 - 411)) ∧
    (up.noGrantOwed ∧ up.link.stall = none ∧ up.link.timeout = 0 ∧
      (offering 500 true).noGrantOwed ∧ (offering 500 true).link.stall.any (·.expired) = true) ∧
    ((pacing 7).noGrantOwed ∧ (pacing 7).patrol.phase = .pacing ∧
      (pacing 7).patrol.timer = some 7 ∧ up.patrol.phase ≠ .pacing) ∧
    ((pacing 7).takesHostAccess ∧ (7 : Data).toNat ≤ 7 ∧ 7 < (8 : Data).toNat) ∧
    ((offering 20 false).takesHostAccess ∧ (20 : Data) ≠ 0 ∧ (20 : Data).toNat ≤ 20 ∧
      20 < (21 : Data).toNat) :=
  ⟨by decide +kernel, by decide +kernel, by decide +kernel, by decide +kernel, by decide +kernel,
    by decide +kernel⟩

/-- LookupReadsLeadToTheResponse: the first read of a LINEAR slot, the read of a NEAREST slot, and the
second read of a LINEAR slot, the slot at the head. -/
theorem witness_lookup_reads :
    (let s := reading snap0 (readOf 3 500 .clean);
      s.store.access = some (.read .lookup (readOf 3 500 .clean) .wanted) ∧
        s.engine = .firstRead prog ∧ readingSlot s.link.queue = some (0, snap0) ∧
        snap0.bank.mode = .linear) ∧
    (let s := reading nearest (readOf 4 1000 .uncorrectable);
      s.stallFollowsOffer ∧ s.link.queue = [] ++ slotReading nearest :: [] ∧
        (slotReading nearest).phase = .reading 5000 nearest ∧ s.engine = .firstRead prog ∧
        nearest.bank.mode = .nearest) ∧
    (let s := reading2 (readOf 4 1000 .corrected);
      s.stallFollowsOffer ∧ s.link.queue = [] ++ slotReading snap0 :: [] ∧
        s.engine = .secondRead prog { data := 500, outcome := .clean }) := by decide +kernel

/-- InterpolationRoundsToNearestAndIsClamped: ORDER 4 and 10 at fraction 0 and at the last one. -/
theorem witness_interpolation :
    ∀ k ∈ ([4, 10] : List (BitVec 4)),
      let n : Snapshot := { snap0 with bank := ⟨0, k, .linear⟩ }
      n.wf ∧ 4 ≤ n.bank.order.toNat ∧ n.bank.order.toNat ≤ 10 ∧
        0 < 2 ^ (16 - n.bank.order.toNat) ∧
        2 ^ (16 - n.bank.order.toNat) - 1 < 2 ^ (16 - n.bank.order.toNat) ∧
        n.clampLo.toInt = -2000 ∧ n.clampHi.toInt = 30000 := by decide +kernel

/-- LookupReadsStayInTheBoundRange: the last interval of a bank, read. -/
theorem witness_lookup_in_range :
    let s := { claiming true false false 0 0 with
      engine := .firstRead { prog with index := 63, fraction := 1023 } }
    s.contextsWf ∧ s.engineInRange ∧ s.lookupWants = some 63 := by
  refine ⟨⟨by decide +kernel, ?_⟩, ?_, by decide +kernel⟩
  · intro sl h
    simp only [claiming, reduceIte, List.mem_singleton] at h
    subst h
    simp only [Slot.wf, slotReading]
    decide +kernel
  · intro ch snap h
    have h' : (0, snap0) = (ch, snap) := by simpa [claiming, readingSlot, slotReading] using h
    cases h'
    refine ⟨fun p hp => ?_, fun p e hp => by cases hp⟩
    cases hp
    decide +kernel

/-- FaultyReadsAreReportedToTheirChannel: a read draining after a link reset and after a soft reset. -/
theorem witness_drained_reads :
    (let s := after .linkRstAssert (reading snap0 (readOf 3 500 .poisoned));
      s.store.access = some (.read .lookup (readOf 3 500 .poisoned) .stale) ∧
        s.engine = .draining 0 snap0.bank false) ∧
    (let s := after (.softReset 0) (reading snap0 (readOf 3 500 .poisoned));
      s.store.access = some (.read .lookup (readOf 3 500 .poisoned) .dropped) ∧
        s.engine = .draining 0 snap0.bank false) := by decide +kernel

/-- FilingTakesTheFirstCaseThatHolds: a record that matches, room with none that does, and a full queue
with and without a CORRECTED record. -/
theorem witness_filing :
    let full := fullLog .corrected
    let worst := fullLog .poisoned
    (∃ x post, full.errors.records = [] ++ x :: post ∧ x.address = 0 ∧ x.kind = .corrected) ∧
    (∀ y ∈ up.errors.records, ¬(y.address = 99 ∧ y.kind = .corrected)) ∧
    up.errors.records.length < 16 ∧
    (∀ y ∈ full.errors.records, ¬(y.address = 99 ∧ y.kind = .uncorrectable)) ∧
    full.errors.records.length = 16 ∧ worst.errors.records.length = 16 ∧
    (∀ y ∈ worst.errors.records, y.kind ≠ .corrected) ∧
    (readOf 99 0 .uncorrectable).outcome = .uncorrectable := by
  refine ⟨⟨_, _, rfl, ?_⟩, ?_⟩ <;> decide +kernel

def stretched (x : Stretch) : State :=
  { up with host := { up.host with
      holder := .pending, posted := some ⟨9, 500⟩, stretch := some x } }

/-- StretchedAccessHoldsTheBus and TablePortIsIdleInStartUp. -/
theorem witness_bus :
    ((stretched .read).host.stretch ≠ none ∧ (stretched .read).noGrantOwed) ∧
    (State.reset.store.device = .startUp ∧ State.reset.startUpQuiet ∧
      State.reset.host.outcome = .starting ∧ State.reset.host.refusedCount = 0 ∧
      State.reset.host.refusedAddress = 0) := by decide +kernel

def holding (h : Holder) (p : Option Posted) : State :=
  { up with host := { up.host with holder := h, posted := p } }

/-- TablePortAccessesFollowTheHolder: the three holder states, the prefetch granted, waiting and absent,
and a posted write outstanding. -/
theorem witness_table_port :
    (∀ h ∈ ([.empty, .pending, .full 5 .clean] : List Holder), (holding h none).takesCommands ∧
      (holding h none).host.holder = h ∧ (holding h none).host.posted = none) ∧
    (withAccess (holding .pending none) (.read .prefetch (readOf 0 0 .clean) .wanted)).takesCommands ∧
    (holding .pending none).hostClaim = some .prefetch ∧
    (holding .empty none).hostClaim ≠ some .prefetch ∧ (holding .empty none).store.access = none ∧
    (holding .pending (some ⟨9, 500⟩)).host.posted.isSome = true := by decide +kernel

/-- TablePortCompletionsEndStretches: the prefetch wanted with and without a stretch, stale and
dropped; the posted write with and without a stretched one behind it. -/
theorem witness_table_port_completions :
    (∀ i ∈ ([.wanted, .stale, .dropped] : List Interest),
      (busyWith (.read .prefetch (readOf 0 0 .clean) i)).store.access =
        some (.read .prefetch (readOf 0 0 .clean) i) ∧
      (busyWith (.read .prefetch (readOf 0 0 .clean) i)).host.stretch ≠ some .read) ∧
    (stretched .read).host.stretch = some .read ∧
    ((withAccess (stretched (.write 7)) (.write .posted (some 9) .wanted)).host.stretch =
        some (.write 7) ∧ (stretched (.write 7)).host.posted.isSome = true) ∧
    (busyWith (.write .posted none .wanted)).host.stretch = none := by decide +kernel

/-- The hypothesis of the register statements, and the ranges of PlainRegisterWritesSetTheirField. -/
theorem witness_registers :
    up.takesHostAccess ∧ (8 : Data).toNat % 128 = 8 ∧ (0x80 + 100 : Data).toNat % 128 = 100 ∧
    (7 : Data).toNat % 128 < 8 ∧ 100 < (101 : Data).toNat % 128 ∧
    (0x09 : BitVec 5) ∉ ([0x15, 0x16, 0x17] : List (BitVec 5)) ∧
    (Instr.registerWrite 0x09 5).wellFormed = true := by decide +kernel

/-- CommandsAreRefusedInStartUp: the first, the last and an unknown code. -/
theorem witness_command_codes :
    State.reset.takesHostAccess ∧ State.reset.store.device = .startUp ∧
    up.takesHostAccess ∧ up.store.device = .running ∧
    (0x01F3 : Data).toNat / 256 = 0x01 ∧ (0x3000 : Data).toNat / 256 = 0x30 ∧
    (0x3100 : Data).toNat / 256 = 0x31 := by decide +kernel

def window (w : Window) (i : BitVec 8) (s : State) : State :=
  { s with host := { s.host with window := w, index := i } }

/-- WindowsShowTheirRecords: the first and the last field of each window, and the empty queues. -/
theorem witness_windows :
    (window .context 0 live).host.index.toNat = (0 : Chan).val * 16 + 0 ∧
    (window .context 255 live).host.index.toNat = (15 : Chan).val * 16 + 15 ∧
    (∃ r rest, (window .errorHead 7 (fullLog .corrected)).errors.records = r :: rest) ∧
    up.errors.records = [] ∧ up.maint.completions = [] ∧
    (window .completionHead 7 up).host.index.toNat < 8 ∧
    ((window .spareMap 5 (spared true)).host.index.toNat = (2 : SlotNo).val * 2 + 1 ∧
      (spared true).sparing.wf ∧ (⟨4100, 2⟩ : MapEntry) ∈ (spared true).sparing.entries) ∧
    (window .spareMap 31 up).host.index.toNat = (15 : SlotNo).val * 2 + 1 ∧
    up.sparing.slots[15].state ≠ .mapped := by
  refine ⟨rfl, rfl, ⟨_, _, rfl⟩, rfl, rfl, ?_⟩
  decide +kernel

theorem up_contextsWf : up.contextsWf := ⟨by decide +kernel, fun sl h => by cases h⟩
theorem live_contextsWf : live.contextsWf := ⟨by decide +kernel, fun sl h => by cases h⟩

/-- ContextWritesAreCheckedInOrder: an un-armed DISABLED channel and a live one, at the boundaries of
BASE and ORDER; each field of channel 15 has its index. -/
theorem witness_context_writes :
    (∀ f : Fin 16, (window .context (BitVec.ofNat 8 (240 + f.val)) up).host.index.toNat =
      (15 : Chan).val * 16 + f.val) ∧
    ((window .context 255 live).takesHostAccess ∧ (window .context 255 up).takesHostAccess ∧
      (window .errorHead 0 up).takesHostAccess ∧
      (window .errorHead 0 up).host.window ≠ .context) ∧
    -- the active bank of a live channel and an armed bank are locked, an idle one is not
    (live.channels[0].activeBank = .a ∧ live.channels[0].state ≠ .disabled) ∧
    ((after (.arm 0) up).channels[0].armed = true ∧ up.channels[0].armed = false) ∧
    -- the largest BASE at ORDER 4, the next one, and the ORDER bounds
    (8175 + 2 ^ 4 ≤ 8191 ∧ 8191 < 8176 + 2 ^ 4 ∧ (0x8000 + 4 : Data).toNat % 16 = 4 ∧
      (10 : Data).toNat % 16 = 10 ∧ (11 : Data).toNat % 16 = 11 ∧ (3 : Data).toNat % 16 = 3) ∧
    ((30000 : Data).toInt = live.channels[0].clampHi.toInt ∧
      live.channels[0].clampHi.toInt < (30001 : Data).toInt) := by decide +kernel

/-- PatrolControlStartsAndStopsThePatrol: each patrol state, busy or not, the interval 0 or not. -/
theorem witness_patrol_control :
    (∀ ph ∈ ([.claiming, .checking, .repairing] : List PatrolPhase),
      let s := withAccess (stepping ph false false) (.write .posted (some 9) .wanted)
      s.patrol.phase = ph ∧ s.takesHostAccess) ∧
    ((pacing 7).takesHostAccess ∧ (pacing 7).patrol.phase = .pacing ∧ (pacing 7).store.device = .running) ∧
    (up.takesHostAccess ∧ up.patrol.phase = .off ∧ up.maint.busy = false ∧
      up.patrol.interval ≠ 0 ∧ (running .fill 5 1).takesHostAccess ∧
      (running .fill 5 1).maint.busy = true ∧ (running .fill 5 1).patrol.phase = .off) ∧
    (0x1001 : Data).toNat / 256 % 32 = 16 ∧ (0x1101 : Data).toNat / 256 % 32 = 17 ∧
    (0x0841 : Data).getLsbD 0 = true ∧ (0x0840 : Data).getLsbD 0 = false := by decide +kernel

/-- DeviceStatusCountsComeBackByDivision: both queues empty, and the error record queue full. -/
theorem witness_device_status :
    (State.reset.queueBounded ∧ State.reset.errors.wf) ∧
    ((fullLog .corrected).queueBounded ∧ (fullLog .corrected).errors.wf ∧
      (fullLog .corrected).store.device = .running) := by decide +kernel

/-- ChannelCommandsCheckStateThenFillRanges: a DISABLED channel with and without a FILL job on the last
word of its bank, a live, an armed and a SUSPENDED one. -/
theorem witness_channel_commands :
    (∀ s ∈ ([up, live, running .fill 16 1, running .fill 17 1] : List State),
      s.takesCommands ∧ s.maint.jobsWf) ∧
    (0xF3 : BitVec 8).toNat % 16 = (3 : Chan).val ∧
    (up.channels[3].state = .disabled ∧ up.channels[3].armed = false) ∧
    live.channels[0].state ≠ .disabled ∧ (after (.arm 0) up).channels[0].armed = true ∧
    ({ curve with state := .suspended } : Context).state = .suspended := by decide +kernel

theorem witness_fill_meets : (running .fill 16 1).fillMeets Bank.reset :=
  ⟨job .fill 16 1, by decide +kernel, rfl, 16, by decide +kernel⟩

theorem witness_fill_does_not_meet : ¬(running .fill 17 1).fillMeets Bank.reset := by
  rintro ⟨j, hj, -, a, ⟨-, h⟩, h', -⟩
  have hj' : j = job .fill 17 1 := by
    simpa [running, Maint.live, Job.fresh, up, State.reset] using hj
  subst hj'
  have h1 : a ≤ 16 := h
  have h2 : 17 ≤ a := h'
  omega

/-- JobCommandsAreCheckedInOrder: START_UP, no ticket, the argument bounds, and a FILL range beside a
live bank and on its last word. -/
theorem witness_job_commands :
    (State.reset.takesHostAccess ∧ State.reset.store.device = .startUp) ∧
    (up.takesHostAccess ∧ up.store.device = .running ∧ up.maint.ticketsFree ≠ 0 ∧
      ({ up.maint with ticketsFree := 0 } : Maint).ticketsFree = 0) ∧
    (8191 < (8192 : Data).toNat ∧ (8191 : Data).toNat ≤ 8191 ∧
      (8191 : Data).toNat + (1 : Data).toNat ≤ 8192 ∧
      8192 < (8191 : Data).toNat + (2 : Data).toNat ∧ (0 : Data).toNat = 0) ∧
    (live.isProtected 64 = true ∧ live.isProtected 65 = false) := by decide +kernel

/-- AbortEndsQueuedAndUngrantedJobs: a RETIRE, a granted and an ungranted VERIFY, and no job. -/
theorem witness_abort :
    (retiring.takesCommands ∧ retiring.maint.run.map (·.job.kind) = some .retire) ∧
    (let s := withAccess (running .verify 5 2) (.read .verify (readOf 5 0 .clean) .wanted);
      s.takesCommands ∧ s.maint.run = some (job .verify 5 2).fresh ∧
        s.store.access = some (.read .verify (readOf 5 0 .clean) .wanted)) ∧
    (let s := running .verify 5 2;
      s.takesCommands ∧ s.maint.run = some (job .verify 5 2).fresh ∧ s.store.access = none) ∧
    (up.takesCommands ∧ up.maint.run = none) := by decide +kernel

/-- PopsRemoveTheHeadRecord: START_UP, records and empty queues. -/
theorem witness_pops :
    (State.reset.store.device = .startUp ∧ State.reset.takesHostAccess) ∧
    ((fullLog .corrected).takesCommands ∧
      ∃ r rest, (fullLog .corrected).errors.records = r :: rest) ∧
    ((after (.abortJobs 0) (running .verify 5 2)).takesCommands ∧
      ∃ r rest, (after (.abortJobs 0) (running .verify 5 2)).maint.completions = r :: rest) ∧
    up.takesCommands ∧ up.errors.records = [] ∧ up.maint.completions = [] :=
  ⟨by decide +kernel, ⟨by decide +kernel, _, _, rfl⟩, ⟨by decide +kernel, _, _, rfl⟩,
    by decide +kernel, rfl, rfl⟩

/-- SoftResetKeepsTheStore: a lookup read granted, and the store free. -/
theorem witness_soft_reset :
    (let s := reading snap0 (readOf 3 500 .clean);
      s.takesCommands ∧ s.engineAgrees ∧
        s.store.access = some (.read .lookup (readOf 3 500 .clean) .wanted)) ∧
    (live.takesCommands ∧ live.engineAgrees ∧ live.store.access = none) := by decide +kernel

/-- JobsStartAndEndOneAtATime: a job behind nothing, a job behind a step, and a yielding patrol. -/
theorem witness_jobs_start_and_end :
    (let s := { up with maint := { up.maint with queue := [job .fill 5 1] } };
      s.maint.run = none ∧ s.patrol.step = none ∧ s.maint.queue = job .fill 5 1 :: []) ∧
    ((stepping .claiming false false).patrol.step ≠ none ∧ up.maint.queue = []) ∧
    (let s := { up with patrol := { up.patrol with enable := true, phase := .yielding } };
      let q := s.startJob
      q.maint.run = none ∧ q.maint.queue = [] ∧ q.patrol.phase = .yielding) := by decide +kernel

/-- JobWordsAreCountedToTheLast: a FILL and a VERIFY word, wanted and dropped, a job running behind the
dropped access, and none, as a soft reset leaves it. -/
theorem witness_job_words :
    ∀ i ∈ ([.wanted, .dropped] : List Interest),
      (withAccess (running .fill 5 2) (.write .fill (some 5) i)).store.access =
        some (.write .fill (some 5) i) ∧
      (withAccess (running .fill 5 2) (.write .fill (some 5) i)).maint.run =
        some (job .fill 5 2).fresh ∧
      (withAccess (running .verify 5 2) (.read .verify (readOf 5 0 .corrected) i)).maint.run =
        some (job .verify 5 2).fresh ∧
      (let s := after (.softReset 0)
          (withAccess (running .verify 5 2) (.read .verify (readOf 5 0 .corrected) i));
        s.maint.run = none ∧
          s.store.access = some (.read .verify (readOf 5 0 .corrected) .dropped)) := by
  decide +kernel

def stepRetiring (cancel : Bool) : State := { stepping .repairing true cancel with
  store := { up.store with mark := some 3010 }
  sparing := { up.sparing with
    retire := some { address := 3010, source := .patrol, phase := .read } } }

/-- RetireOperationMovesTheWordToASpare: the lowest FREE slot behind others, no FREE slot for a job and
for a step, and the commit of an address without and with an entry. -/
theorem witness_retire :
    (let s := withAccess retiring (.read .retire (readOf 4100 255 .uncorrectable) .wanted);
      s.sparing.retire = some { address := 4100, source := .job, phase := .read } ∧
        s.sparing.slots[0].state = .free ∧ s.maint.run = some (job .retire 4100 1).fresh) ∧
    (let s := spared true;
      s.sparing.slots[0].state = .free ∧ (noSpares s).sparing.slots[15].state ≠ .free ∧
        ∀ k : SlotNo, (noSpares s).sparing.slots[k].state ≠ .free) ∧
    (let s := noSpares (withAccess (stepRetiring false)
        (.read .retire (readOf 3010 60 .corrected) .wanted));
      s.sparing.retire = some { address := 3010, source := .patrol, phase := .read } ∧
        (∀ k : SlotNo, s.sparing.slots[k].state ≠ .free) ∧
        s.patrol.step.map (·.cancel) = some false) ∧
    (let s := withAccess copying (.write .spare (some 8194) .wanted);
      s.sparing.wf ∧ s.sparing.retire.map (·.phase) = some (.write copy255) ∧
        s.resolve 4100 = .main 4100) ∧
    (let s := { withAccess copying (.write .spare (some 8195) .wanted) with
        sparing := { (spared true).sparing with
          retire := some
            { address := 4100, source := .job, phase := .write { copy255 with slot := 3 } } } };
      s.sparing.wf ∧ s.resolve 4100 = .spare 2) := by decide +kernel

/-- PatrolReadRepairsOnlyCorrectedWords: a first CORRECTED record against RETIRE_LIMIT 4 and 1, and an
UNCORRECTABLE read. -/
theorem witness_patrol_read :
    let r := readOf 3010 60 .corrected
    let s := withAccess (stepping .checking false false) (.read .patrol r .wanted)
    s.store.access = some (.read .patrol r .wanted) ∧ s.patrol.step.isSome = true ∧
      s.storeFreed.filedCount r .patrol none = some 1 ∧ s.patrol.retireLimit.toNat = 4 ∧
      (1 : BitVec 4) ≠ 0 ∧ (1 : BitVec 4).toNat ≤ (1 : BitVec 8).toNat ∧
      (readOf 3010 60 .uncorrectable).outcome ≠ .corrected := by decide +kernel

/-- StepEndAdvancesThePointer: a write-back wanted and dropped, and the three dropped accesses. -/
theorem witness_step_end :
    (withAccess (stepping .repairing false false) (.write .writeBack (some 3010) .wanted)
      ).patrol.step.isSome = true ∧
    (∀ a ∈ ([.write .writeBack (some 3010) .dropped, .read .patrol (readOf 3010 60 .clean) .dropped,
        .read .retire (readOf 3010 60 .clean) .dropped, .write .spare (some 8194) .dropped] :
        List Access), (busyWith a).store.access = some a) := by decide +kernel

/-! The premises of every invariant hold of a running machine (`up_maintSound`, `live_contextsWf` and
these). -/

theorem witness_memory_canonical : memCanonical live.store.mem := by decide +kernel
theorem witness_start_up_quiet : live.startUpQuiet := by decide +kernel
theorem witness_sparing : live.sparing.wf := by decide +kernel
theorem witness_no_idle_claim :
    live.noIdleClaim ∧
    -- a step started by the end of the fill, and a second claim that a link reset withdraws
    (after .startUpFillWriteCompletion (filling 8207 true 0)).noIdleClaim ∧
    (after .lookupReadCompletion (firstRead .linkRstAssert)).noIdleClaim ∧
    ¬(claiming true false false 0 0).noIdleClaim := by decide +kernel
theorem witness_timers_not_overdue :
    (pacing 99).timersNotOverdue ∧ (offering 499 false).timersNotOverdue ∧
    (offering 500 true).timersNotOverdue ∧ ¬(offering 500 false).timersNotOverdue := by
  decide +kernel
theorem witness_counts :
    live.waitsInRange ∧ live.queueBounded ∧ live.registersInRange ∧ live.stretchWaits :=
  ⟨by decide +kernel, by decide +kernel, by decide +kernel, fun h => (by cases h),
    fun _ h => (by cases h)⟩
theorem witness_engine : live.engineAgrees ∧ live.stallFollowsOffer := by decide +kernel
theorem witness_errors : live.errors.wf := by decide +kernel
theorem witness_jobs : live.maint.ticketsAccounted ∧ live.maint.jobsWf := by decide +kernel
theorem witness_fills : live.fillsUnprotected := by decide +kernel

/-- And that machine takes a step, to another state. -/
theorem witness_invariants_step :
    ∃ t, step { live with pending := [.delivery] } = .next t := ⟨_, rfl⟩

end Sys2Proof.Tests
end

namespace Sys2Proof.Machine

/-! PROOFS. The check code and the stored words (spec/01_the_table_store.md 2.2 and 2.3): the check
field is linear in the data, its bits and its syndrome values; what a stored word decodes to by its
syndrome; the word an address reaches; and what disturbed bits do. -/

/-! ### The exclusive-or of selected values -/

@[simp] theorem xorSelected_nil (d : Data) (i : Nat) : xorSelected d i [] = 0 := rfl

@[simp] theorem xorSelected_cons (d : Data) (i : Nat) (v : BitVec 6) (vs : List (BitVec 6)) :
    xorSelected d i (v :: vs) = (if d.getLsbD i then v else 0) ^^^ xorSelected d (i + 1) vs := rfl

theorem ite_bool_xor (a b : Bool) (v : BitVec 6) :
    (if a ^^ b then v else 0) = (if a then v else 0) ^^^ (if b then v else 0) := by
  cases a <;> cases b <;> simp

theorem xorSelected_xor (d e : Data) (i : Nat) (vs : List (BitVec 6)) :
    xorSelected (d ^^^ e) i vs = xorSelected d i vs ^^^ xorSelected e i vs := by
  induction vs generalizing i with
  | nil => simp
  | cons v vs ih =>
    simp only [xorSelected_cons, ih, BitVec.getLsbD_xor, ite_bool_xor]
    ac_rfl

/-- As one fold over the values paired with the data bits that select them. -/
theorem foldl_xor_eq_xorSelected (d : Data) (i : Nat) (vs : List (BitVec 6)) (acc : BitVec 6) :
    ((vs.zipIdx i).map (fun v => if d.getLsbD v.2 then v.1 else 0)).foldl (· ^^^ ·) acc =
      acc ^^^ xorSelected d i vs := by
  induction vs generalizing i acc with
  | nil => simp
  | cons v vs ih =>
    rw [List.zipIdx_cons, List.map_cons, List.foldl_cons, ih, xorSelected_cons, BitVec.xor_assoc]

/-- The data bits, counted from bit `i`, whose value in the list has bit `j`. -/
def selectingBits (j i : Nat) (vs : List (BitVec 6)) : List Nat :=
  ((vs.zipIdx i).filter (fun v => v.1.getLsbD j)).map Prod.snd

/-- Bit `j` is the parity of the data bits whose values have bit `j`. -/
theorem getLsbD_xorSelected (d : Data) (i j : Nat) (vs : List (BitVec 6)) (acc : Bool) :
    (selectingBits j i vs).foldl (fun b n => b ^^ d.getLsbD n) acc =
      (acc ^^ (xorSelected d i vs).getLsbD j) := by
  induction vs generalizing i acc with
  | nil => simp [selectingBits]
  | cons v vs ih =>
    simp only [selectingBits] at ih
    rw [xorSelected_cons, BitVec.getLsbD_xor, ← Bool.xor_assoc, selectingBits, List.zipIdx_cons]
    cases hv : v.getLsbD j <;> cases hd : d.getLsbD i <;> simp [hv, hd, ih]

/-! ### The check field -/

theorem checkField_xor (d e : Data) : checkField (d ^^^ e) = checkField d ^^^ checkField e :=
  xorSelected_xor d e 0 dataSyndromes

/-- Each row of Table 2-2 lists the data bits whose syndrome values have that row's bit. -/
theorem getLsbD_checkField (d : Data) (j : Nat) : (checkField d).getLsbD j =
    (selectingBits j 0 dataSyndromes).foldl (fun b n => b ^^ d.getLsbD n) false := by
  rw [getLsbD_xorSelected, Bool.false_xor, checkField]

/-- The syndrome value of each data bit (R4). -/
theorem checkField_twoPow (i : Fin 16) :
    dataSyndromes[i.val]? = some (checkField (BitVec.twoPow 16 i)) := by
  decide +revert

/-- The syndrome value of each check bit (R4). -/
theorem checkSyndromes_getElem? (j : Fin 6) :
    checkSyndromes[j.val]? = some (BitVec.twoPow 6 j) := by
  decide +revert

/-- Settles O8: each row of Table 2-2 is the bits that its check bit selects, and the check field of
one bit is that bit's value. -/
theorem checkBitsFollowTheTable : Obligations.CheckBitsFollowTheTable := by
  unfold Obligations.CheckBitsFollowTheTable
  refine ⟨fun d => ?_, by decide, by decide, by decide⟩
  intro x values
  refine ⟨getLsbD_checkField d 0, getLsbD_checkField d 1, getLsbD_checkField d 2,
    getLsbD_checkField d 3, getLsbD_checkField d 4, getLsbD_checkField d 5, ?_, ?_, ?_⟩
  · calc checkField d = 0 ^^^ xorSelected d 0 dataSyndromes := BitVec.zero_xor.symm
      _ = _ := (foldl_xor_eq_xorSelected d 0 dataSyndromes 0).symm
  · intro i v hv
    have hi : i < 16 := (List.getElem?_eq_some_iff.mp hv).1
    exact Option.some.inj ((checkField_twoPow ⟨i, hi⟩).symm.trans hv)
  · intro j
    rw [syndromeOf, ← BitVec.xor_assoc, BitVec.xor_self, BitVec.zero_xor]
    exact (List.getElem?_eq_some_iff.mp (checkSyndromes_getElem? j)).2.symm

/-! ### What a stored word decodes to (Table 2-3) -/

theorem decodeWord_syndrome (w : StoredWord) : (decodeWord w).2.2 = syndromeOf w := by
  simp only [decodeWord]
  split
  · rfl
  · split
    · rfl
    · split <;> rfl

theorem dataPosition_of_getElem? {syn : BitVec 6} {i : Nat} (h : dataSyndromes[i]? = some syn) :
    dataPosition syn = some i := by
  have hpos : ∀ i : Fin 16, ∀ v ∈ dataSyndromes[i.val]?, dataPosition v = some i.val := by decide
  exact hpos ⟨i, (List.getElem?_eq_some_iff.mp h).1⟩ syn h

theorem dataPosition_of_not_mem {syn : BitVec 6} (h : syn ∉ dataSyndromes) :
    dataPosition syn = none := by
  rw [dataPosition, List.findIdx?_eq_none_iff]
  exact fun v hv => beq_false_of_ne (fun he => h (he ▸ hv))

/-- The syndrome values of the data bits are neither 0 nor those of the check bits. -/
theorem dataSyndromes_apart : ∀ v ∈ dataSyndromes, v ≠ 0 ∧ v ∉ checkSyndromes := by decide

theorem zero_not_mem_checkSyndromes : 0 ∉ checkSyndromes := by decide

section
variable {w : StoredWord}

theorem decodeWord_of_syndrome_zero (h : syndromeOf w = 0) :
    decodeWord w = (.clean, w.data, syndromeOf w) := by
  simp only [decodeWord, if_pos h]

theorem decodeWord_of_mem_checkSyndromes (h : syndromeOf w ∈ checkSyndromes) :
    decodeWord w = (.corrected, w.data, syndromeOf w) := by
  have h0 : syndromeOf w ≠ 0 := fun h0 => zero_not_mem_checkSyndromes (h0 ▸ h)
  simp only [decodeWord, if_neg h0, if_pos h]

theorem decodeWord_of_dataSyndromes {i : Nat} (h : dataSyndromes[i]? = some (syndromeOf w)) :
    decodeWord w = (.corrected, w.data ^^^ BitVec.twoPow 16 i, syndromeOf w) := by
  obtain ⟨h0, hc⟩ := dataSyndromes_apart _ (List.mem_of_getElem? h)
  simp only [decodeWord, if_neg h0, if_neg hc, dataPosition_of_getElem? h]

theorem decodeWord_of_no_syndrome (h0 : syndromeOf w ≠ 0) (hc : syndromeOf w ∉ checkSyndromes)
    (hd : syndromeOf w ∉ dataSyndromes) :
    decodeWord w = (.uncorrectable, w.data, syndromeOf w) := by
  simp only [decodeWord, if_neg h0, if_neg hc, dataPosition_of_not_mem hd]

/-- The outcome by the syndrome: nothing else than Table 2-3's three. -/
theorem decodeWord_outcome (w : StoredWord) :
    (syndromeOf w = 0 ∧ (decodeWord w).1 = .clean) ∨
    ((syndromeOf w ∈ checkSyndromes ∨ syndromeOf w ∈ dataSyndromes) ∧
      (decodeWord w).1 = .corrected) ∨
    (decodeWord w).1 = .uncorrectable := by
  by_cases h0 : syndromeOf w = 0
  · exact .inl ⟨h0, by rw [decodeWord_of_syndrome_zero h0]⟩
  by_cases hc : syndromeOf w ∈ checkSyndromes
  · exact .inr (.inl ⟨.inl hc, by rw [decodeWord_of_mem_checkSyndromes hc]⟩)
  by_cases hd : syndromeOf w ∈ dataSyndromes
  · obtain ⟨i, hi⟩ := List.getElem?_of_mem hd
    exact .inr (.inl ⟨.inr hd, by rw [decodeWord_of_dataSyndromes hi]⟩)
  · exact .inr (.inr (by rw [decodeWord_of_no_syndrome h0 hc hd]))

end

/-! ### The word that an address reaches (R8) -/

theorem mapLookup_of_mem {l : List (Option MapEntry)} {e : MapEntry}
    (hn : ((l.filterMap id).map MapEntry.address).Nodup) (he : e ∈ l.filterMap id) :
    mapLookup l e.address = some e.slot := by
  induction l with
  | nil => simp at he
  | cons o rest ih =>
    cases o with
    | none => exact ih hn he
    | some f =>
      simp only [List.filterMap_cons, id_eq] at hn he
      rw [List.map_cons, List.nodup_cons] at hn
      rw [mapLookup]
      rcases List.mem_cons.mp he with rfl | he
      · rw [if_pos rfl]
      · have hne : f.address ≠ e.address := fun h => hn.1 (h ▸ List.mem_map_of_mem he)
        rw [if_neg hne]
        exact ih hn.2 he

theorem mapLookup_of_forall_ne {l : List (Option MapEntry)} {a : Addr}
    (h : ∀ e ∈ l.filterMap id, e.address ≠ a) : mapLookup l a = none := by
  induction l with
  | nil => rfl
  | cons o rest ih =>
    cases o with
    | none => exact ih h
    | some f =>
      simp only [List.filterMap_cons, id_eq, List.forall_mem_cons] at h
      rw [mapLookup, if_neg h.1]
      exact ih h.2

section
variable {s : State}

/-- The word that a valid entry for the address names. -/
theorem State.resolve_of_mem (hs : s.sparing.wf) {e : MapEntry} (he : e ∈ s.sparing.entries) :
    s.resolve e.address = .spare e.slot := by
  obtain ⟨hn, -⟩ := hs
  rw [State.resolve, mapLookup_of_mem hn he]

/-- Without an entry the main word. -/
theorem State.resolve_of_forall_ne {a : Addr} (h : ∀ e ∈ s.sparing.entries, e.address ≠ a) :
    s.resolve a = .main a := by
  rw [State.resolve, mapLookup_of_forall_ne h]

@[simp] theorem State.sense_place (a : Addr) : (s.sense a).place = s.resolve a := by
  simp only [State.sense]
  split <;> rfl

@[simp] theorem State.sense_address (a : Addr) : (s.sense a).address = a := by
  simp only [State.sense]
  split <;> rfl

/-- R6: a MAPPED slot whose poison flag is set reads POISONED, its bits as they stand. -/
theorem State.sense_of_poisoned {a : Addr} (h : s.poisonedPlace (s.resolve a) = true) :
    s.sense a = { data := (s.word (s.resolve a)).data, outcome := .poisoned, syndrome := 0
                  address := a, place := s.resolve a } := by
  simp only [State.sense, if_pos h]

/-- Every other word reads as it decodes (R5). -/
theorem State.sense_of_not_poisoned {a : Addr} (h : s.poisonedPlace (s.resolve a) = false) :
    s.sense a = { data := (decodeWord (s.word (s.resolve a))).2.1
                  outcome := (decodeWord (s.word (s.resolve a))).1
                  syndrome := (decodeWord (s.word (s.resolve a))).2.2
                  address := a, place := s.resolve a } := by
  simp only [State.sense, h, Bool.false_eq_true, if_false]

/-- In a sound state the poison flag alone tells of a POISONED slot. -/
theorem State.poisonedPlace_spare (hs : s.sparing.wf) (k : SlotNo) :
    s.poisonedPlace (.spare k) = s.sparing.slots[k].poison := by
  obtain ⟨-, -, -, hmapped, -⟩ := hs
  cases hp : s.sparing.slots[k].poison with
  | false => rw [State.poisonedPlace, hp, Bool.and_false]
  | true => rw [State.poisonedPlace, hp, hmapped k hp]; rfl

end

/-- Settles O9: the place by the map lookup, the outcome by the poison flag and then by what the word
decodes to. -/
theorem readSensesTheResolvedWord : Obligations.ReadSensesTheResolvedWord := by
  unfold Obligations.ReadSensesTheResolvedWord
  intro s a hs p w syn
  have hplace : p = s.resolve a := s.sense_place a
  refine ⟨s.sense_address a, ?_, ?_, ?_, ?_⟩
  · rintro e he rfl
    rw [hplace, State.resolve_of_mem hs he]
  · intro h
    rw [hplace, State.resolve_of_forall_ne h]
  · intro k hk hp
    have hpoison : s.poisonedPlace (s.resolve a) = true := by
      rw [← hplace, hk, State.poisonedPlace_spare hs, hp]
    simp only [State.sense_of_poisoned hpoison, w, hplace, and_self]
  · intro hclear
    have hpoison : s.poisonedPlace (s.resolve a) = false := by
      rw [← hplace]
      cases hp : p with
      | main b => rfl
      | spare k => rw [State.poisonedPlace_spare hs, hclear k hp]
    rw [State.sense_of_not_poisoned hpoison, ← hplace]
    refine ⟨decodeWord_syndrome w, fun h => ?_, fun h => ?_, fun i h => ?_, fun h0 h => ?_⟩
    · rw [decodeWord_of_syndrome_zero h]; exact ⟨rfl, rfl⟩
    · rw [decodeWord_of_mem_checkSyndromes h]; exact ⟨rfl, rfl⟩
    · rw [decodeWord_of_dataSyndromes h]; exact ⟨rfl, rfl⟩
    · have hboth : syn ∉ checkSyndromes ++ dataSyndromes := h
      rw [List.mem_append, not_or] at hboth
      rw [decodeWord_of_no_syndrome h0 hboth.1 hboth.2]; exact ⟨rfl, rfl⟩

/-! ### The number of bits that are 1 -/

theorem countP_xor_mod_two {α : Type} (f g : α → Bool) (l : List α) :
    l.countP (fun a => f a ^^ g a) % 2 = (l.countP f + l.countP g) % 2 := by
  induction l with
  | nil => rfl
  | cons a l ih =>
    simp only [List.countP_cons]
    cases f a <;> cases g a <;> simp <;> omega

theorem onesCount_xor_mod_two {n : Nat} (x y : BitVec n) :
    onesCount (x ^^^ y) % 2 = (onesCount x + onesCount y) % 2 := by
  simp only [onesCount, BitVec.getLsbD_xor, countP_xor_mod_two]

/-- The positions of the bits that are 1. -/
def onesAt {n : Nat} (x : BitVec n) : Finset (Fin n) :=
  Finset.univ.filter (fun i => x.getLsbD i = true)

section
variable {n : Nat} {x : BitVec n}

@[simp] theorem mem_onesAt {i : Fin n} : i ∈ onesAt x ↔ x.getLsbD i = true := by
  simp [onesAt]

theorem card_onesAt (x : BitVec n) : (onesAt x).card = onesCount x := by
  rw [onesAt, Finset.card_filter,
    Fin.sum_univ_eq_sum_range (fun i => if x.getLsbD i = true then 1 else 0), ← Finset.card_filter,
    ← Nat.count_eq_card_filter_range, Nat.count, onesCount]
  simp

theorem onesAt_injective {y : BitVec n} (h : onesAt x = onesAt y) : x = y :=
  BitVec.eq_of_getLsbD_eq fun i hi => by
    rw [Bool.eq_iff_iff]
    exact mem_onesAt.symm.trans ((Finset.ext_iff.mp h ⟨i, hi⟩).trans mem_onesAt)

theorem onesAt_zero : onesAt 0#n = ∅ := by
  ext i
  simp

theorem onesAt_twoPow (i : Fin n) : onesAt (BitVec.twoPow n i) = {i} := by
  ext j
  simp [Fin.ext_iff, eq_comm]

theorem onesAt_twoPow_xor {i j : Fin n} (h : i ≠ j) :
    onesAt (BitVec.twoPow n i ^^^ BitVec.twoPow n j) = {i, j} := by
  ext k
  grind [mem_onesAt]

@[simp] theorem onesCount_zero : onesCount 0#n = 0 := by
  rw [← card_onesAt, onesAt_zero, Finset.card_empty]

theorem eq_zero_of_onesCount (h : onesCount x = 0) : x = 0#n := by
  rw [← card_onesAt, Finset.card_eq_zero] at h
  exact onesAt_injective (h.trans onesAt_zero.symm)

theorem eq_twoPow_of_onesCount (h : onesCount x = 1) : ∃ i : Fin n, x = BitVec.twoPow n i := by
  rw [← card_onesAt, Finset.card_eq_one] at h
  obtain ⟨i, hi⟩ := h
  exact ⟨i, onesAt_injective (hi.trans (onesAt_twoPow i).symm)⟩

theorem eq_twoPow_xor_of_onesCount (h : onesCount x = 2) :
    ∃ i j : Fin n, i ≠ j ∧ x = BitVec.twoPow n i ^^^ BitVec.twoPow n j := by
  rw [← card_onesAt, Finset.card_eq_two] at h
  obtain ⟨i, j, hij, hx⟩ := h
  exact ⟨i, j, hij, onesAt_injective (hx.trans (onesAt_twoPow_xor hij).symm)⟩

end

/-! ### The syndrome of disturbed bits (R7) -/

/-- Every syndrome value has an odd number of ones, so a syndrome tells the parity of the disturbed
bits. -/
theorem onesCount_syndromes_odd :
    (∀ v ∈ dataSyndromes, onesCount v % 2 = 1) ∧ ∀ v ∈ checkSyndromes, onesCount v % 2 = 1 := by
  decide

theorem onesCount_xorSelected_mod_two (d : Data) (i : Nat) {vs : List (BitVec 6)}
    (h : ∀ v ∈ vs, onesCount v % 2 = 1) :
    onesCount (xorSelected d i vs) % 2 =
      (List.range' i vs.length).countP (fun n => d.getLsbD n) % 2 := by
  induction vs generalizing i with
  | nil => simp
  | cons v vs ih =>
    obtain ⟨hv, hvs⟩ := List.forall_mem_cons.mp h
    have hrest := ih (i + 1) hvs
    rw [xorSelected_cons, onesCount_xor_mod_two, List.length_cons, List.range'_succ,
      List.countP_cons]
    cases d.getLsbD i with
    | false =>
      simp only [Bool.false_eq_true, if_false, BitVec.ofNat_eq_ofNat, onesCount_zero]
      omega
    | true =>
      simp only [if_true]
      omega

theorem onesCount_checkField_mod_two (d : Data) :
    onesCount (checkField d) % 2 = onesCount d % 2 := by
  rw [checkField, onesCount_xorSelected_mod_two d 0 onesCount_syndromes_odd.1, onesCount,
    List.range_eq_range']
  rfl

theorem onesCount_disturbed_syndrome_mod_two (dm : BitVec 16) (cm : BitVec 6) :
    onesCount (checkField dm ^^^ cm) % 2 = (onesCount dm + onesCount cm) % 2 := by
  have h := onesCount_checkField_mod_two dm
  rw [onesCount_xor_mod_two]
  omega

/-- Two disturbed bits do not cancel: the 22 syndrome values differ. -/
theorem disturbed_syndrome_ne_zero {dm : BitVec 16} {cm : BitVec 6}
    (h : onesCount dm + onesCount cm = 2) : checkField dm ^^^ cm ≠ 0 := by
  have hdata : ∀ i j : Fin 16, i ≠ j →
      checkField (BitVec.twoPow 16 i) ≠ checkField (BitVec.twoPow 16 j) := by decide
  have hmixed : ∀ (i : Fin 16) (j : Fin 6),
      checkField (BitVec.twoPow 16 i) ≠ BitVec.twoPow 6 j := by decide
  intro h0
  replace h0 : checkField dm = cm := BitVec.xor_eq_zero_iff.mp h0
  obtain ⟨hd, hc⟩ | ⟨hd, hc⟩ | ⟨hd, hc⟩ : (onesCount dm = 2 ∧ onesCount cm = 0) ∨
      (onesCount dm = 1 ∧ onesCount cm = 1) ∨ (onesCount dm = 0 ∧ onesCount cm = 2) := by omega
  · obtain ⟨i, j, hij, rfl⟩ := eq_twoPow_xor_of_onesCount hd
    rw [checkField_xor, eq_zero_of_onesCount hc, BitVec.xor_eq_zero_iff] at h0
    exact hdata i j hij h0
  · obtain ⟨i, rfl⟩ := eq_twoPow_of_onesCount hd
    obtain ⟨j, rfl⟩ := eq_twoPow_of_onesCount hc
    exact hmixed i j h0
  · have hcm : cm = 0#6 := by rw [← h0, eq_zero_of_onesCount hd]; rfl
    rw [hcm, onesCount_zero] at hc
    omega

/-! ### A disturbance (R7) -/

theorem exec_storedBitDisturbance {s : State} (h : s.noGrantOwed) (p : Place) (dm : BitVec 16)
    (cm : BitVec 6) : exec (.storedBitDisturbance p dm cm) s =
      .next (s.putWord p.key (disturbWord (s.word p) dm cm)) := by
  have harm : exec (.storedBitDisturbance p dm cm) s = execStoredBitDisturbance p dm cm s := rfl
  rw [harm, execStoredBitDisturbance, State.event_of_noGrantOwed h]

/-- A word with disturbed bits, as it stands when it is read (R7). -/
def disturbedWord (d dm : BitVec 16) (cm : BitVec 6) : StoredWord :=
  disturbWord (encodeWord d) dm cm

section
variable {dm : BitVec 16} {cm : BitVec 6} (d : BitVec 16)

/-- The syndrome tells of the disturbed bits alone, whatever data was written. -/
theorem syndromeOf_disturbedWord (dm : BitVec 16) (cm : BitVec 6) :
    syndromeOf (disturbedWord d dm cm) = checkField dm ^^^ cm := by
  calc checkField (d ^^^ dm) ^^^ (checkField d ^^^ cm)
      = (checkField d ^^^ checkField d) ^^^ (checkField dm ^^^ cm) := by
        rw [checkField_xor]; ac_rfl
    _ = checkField dm ^^^ cm := by rw [BitVec.xor_self, BitVec.zero_xor]

/-- No disturbed bit: CLEAN, the data as written. -/
theorem decode_disturbedWord_of_zero (h : onesCount dm + onesCount cm = 0) :
    (decodeWord (disturbedWord d dm cm)).1 = .clean ∧
      (decodeWord (disturbedWord d dm cm)).2.1 = d := by
  obtain rfl := eq_zero_of_onesCount (x := dm) (by omega)
  obtain rfl := eq_zero_of_onesCount (x := cm) (by omega)
  rw [decodeWord_of_syndrome_zero (syndromeOf_disturbedWord d _ _)]
  exact ⟨rfl, BitVec.xor_zero⟩

/-- One disturbed bit: CORRECTED, the data as written. -/
theorem decode_disturbedWord_of_one (h : onesCount dm + onesCount cm = 1) :
    (decodeWord (disturbedWord d dm cm)).1 = .corrected ∧
      (decodeWord (disturbedWord d dm cm)).2.1 = d := by
  have hsyn := syndromeOf_disturbedWord d dm cm
  obtain ⟨hd, hc⟩ | ⟨hd, hc⟩ : (onesCount dm = 1 ∧ onesCount cm = 0) ∨
      (onesCount dm = 0 ∧ onesCount cm = 1) := by omega
  · obtain ⟨i, rfl⟩ := eq_twoPow_of_onesCount hd
    obtain rfl := eq_zero_of_onesCount hc
    rw [BitVec.xor_zero] at hsyn
    rw [decodeWord_of_dataSyndromes (hsyn ▸ checkField_twoPow i)]
    refine ⟨rfl, ?_⟩
    change d ^^^ BitVec.twoPow 16 i ^^^ BitVec.twoPow 16 i = d
    rw [BitVec.xor_assoc, BitVec.xor_self, BitVec.xor_zero]
  · obtain rfl := eq_zero_of_onesCount hd
    obtain ⟨j, rfl⟩ := eq_twoPow_of_onesCount hc
    have hmem : syndromeOf (disturbedWord d 0#16 (BitVec.twoPow 6 j)) ∈ checkSyndromes := by
      rw [hsyn, show checkField 0#16 = 0#6 from rfl, BitVec.zero_xor]
      exact List.mem_of_getElem? (checkSyndromes_getElem? j)
    rw [decodeWord_of_mem_checkSyndromes hmem]
    exact ⟨rfl, BitVec.xor_zero⟩

/-- A correctable syndrome has an odd number of ones, so the number of disturbed bits is odd. -/
theorem odd_of_correctable_syndrome (h : syndromeOf (disturbedWord d dm cm) ∈ checkSyndromes ∨
    syndromeOf (disturbedWord d dm cm) ∈ dataSyndromes) :
    (onesCount dm + onesCount cm) % 2 = 1 := by
  rw [← onesCount_disturbed_syndrome_mod_two, ← syndromeOf_disturbedWord d]
  exact h.elim (onesCount_syndromes_odd.2 _) (onesCount_syndromes_odd.1 _)

/-- Two disturbed bits: UNCORRECTABLE, the data as stored. -/
theorem decode_disturbedWord_of_two (h : onesCount dm + onesCount cm = 2) :
    (decodeWord (disturbedWord d dm cm)).1 = .uncorrectable ∧
      (decodeWord (disturbedWord d dm cm)).2.1 = d ^^^ dm := by
  have h0 : syndromeOf (disturbedWord d dm cm) ≠ 0 :=
    syndromeOf_disturbedWord d dm cm ▸ disturbed_syndrome_ne_zero h
  have hnone := mt (odd_of_correctable_syndrome (dm := dm) (cm := cm) d) (by omega)
  rw [not_or] at hnone
  rw [decodeWord_of_no_syndrome h0 hnone.1 hnone.2]
  exact ⟨rfl, rfl⟩

/-- The parity of the number of disturbed bits bounds the outcome. -/
theorem decode_disturbedWord_parity (dm : BitVec 16) (cm : BitVec 6) :
    let n := onesCount dm + onesCount cm
    let r := decodeWord (disturbedWord d dm cm)
    (n % 2 = 0 → r.1 ≠ .corrected) ∧ (n % 2 = 1 → r.1 ≠ .clean) ∧ r.1 ≠ .poisoned := by
  intro n r
  obtain ⟨h0, hr⟩ | ⟨hsyn, hr⟩ | hr := decodeWord_outcome (disturbedWord d dm cm)
  · have heven : n % 2 = 0 := by
      rw [← onesCount_disturbed_syndrome_mod_two, ← syndromeOf_disturbedWord d, h0]
      rfl
    simp [r, hr, heven]
  · have hodd : n % 2 = 1 := odd_of_correctable_syndrome d hsyn
    simp [r, hr, hodd]
  · simp [r, hr]

end

/-- Settles O10: the syndrome is that of the disturbed bits alone, and its parity is theirs. -/
theorem disturbedBitsReadByTheirNumber : Obligations.DisturbedBitsReadByTheirNumber := by
  unfold Obligations.DisturbedBitsReadByTheirNumber
  refine ⟨fun s p dm cm hm hg => ?_, fun d dm cm => ?_⟩
  · refine ⟨_, exec_storedBitDisturbance hg p dm cm, ?_, fun q hq => ?_, rfl⟩
    · rw [State.word_putWord hm, if_pos rfl, disturbWord]
    · rw [State.word_putWord hm, if_neg hq]
  · exact ⟨(decodeWord_syndrome _).trans (syndromeOf_disturbedWord d dm cm),
      decode_disturbedWord_of_zero d, decode_disturbedWord_of_one d, decode_disturbedWord_of_two d,
      decode_disturbedWord_parity d dm cm⟩

end Sys2Proof.Machine

namespace Sys2Proof.Machine

/-! PROOFS. Lookup evaluation (chapter 5): the slot that an IDLE engine takes, with its offset, index
and fraction; the interpolated value and its rounding; and the output clamp. -/

/-! ### Offset, index and fraction (R69 to R71) -/

/-- The offset step and "offset clamped", apart (R70). -/
theorem offsetStep_eq (sample offset : Data) : offsetStep sample offset =
    (if offset.toNat ≤ sample.toNat then sample.toNat - offset.toNat else 0,
      decide (sample.toNat < offset.toNat)) := by
  unfold offsetStep
  split
  · next h => simp [Nat.not_lt.2 h]
  · next h => simp [Nat.not_le.1 h]

theorem offsetStep_lt (sample offset : Data) : (offsetStep sample offset).1 < 2 ^ 16 := by
  have hs : sample.toNat < 2 ^ 16 := sample.isLt
  rw [offsetStep_eq]
  dsimp only
  split <;> omega

theorem Bank.interval_pos (b : Bank) : 0 < b.interval := Nat.two_pow_pos _

/-- The 16 bits of x are the k bits of the index and the bits of the fraction. -/
theorem Bank.interval_mul_entries {b : Bank} (h : b.order.toNat ≤ 10) :
    b.interval * 2 ^ b.order.toNat = 2 ^ 16 := by
  rw [Bank.interval, ← pow_add, Nat.sub_add_cancel (by omega)]

/-- H is one half of F (Table 5-3). -/
theorem Bank.two_mul_half {b : Bank} (h : b.order.toNat ≤ 10) : 2 * b.half = b.interval := by
  rw [Bank.half, Bank.interval, ← pow_succ']
  congr 1
  omega

/-- The index is one of the bank's 2^k intervals (R71). -/
theorem Bank.index_lt {b : Bank} {x : Nat} (h : b.order.toNat ≤ 10) (hx : x < 2 ^ 16) :
    x / b.interval < 2 ^ b.order.toNat :=
  Nat.div_lt_of_lt_mul (hx.trans_eq (Bank.interval_mul_entries h).symm)

/-! ### Taking a slot (R69) -/

section
variable {s : State}

theorem State.takeSlot_of_waiting {pre post : List Slot} {sl : Slot} {d : Data} {n : Snapshot}
    (he : s.engine = .idle) (hq : s.link.queue = pre ++ sl :: post)
    (hpre : ∀ x ∈ pre, x.isWaiting = false) (hs : sl.phase = .waiting d n) :
    s.takeSlot = { s with
      link := { s.link with queue := pre ++ { sl with phase := .reading d n } :: post }
      engine := .firstRead (startProgress d n) } := by
  simp only [State.takeSlot, he, hq, takeWaiting_split hpre hs, State.setLink, State.setEngine]

theorem State.takeSlot_of_busy (he : s.engine ≠ .idle) : s.takeSlot = s := by
  rcases s.takeSlot_cases with h | ⟨_, _, _, _, _, hi, _⟩
  · exact h
  · exact absurd hi he

theorem State.takeSlot_of_none_waiting (h : ∀ x ∈ s.link.queue, x.isWaiting = false) :
    s.takeSlot = s := by
  rcases s.takeSlot_cases with ht | ⟨pre, sl, post, d, n, -, hq, -, hs, -⟩
  · exact ht
  · have hsl : sl.isWaiting = false := h sl (by simp [hq])
    simp [Slot.isWaiting, hs] at hsl

end

/-- Settles O20: the queue splits at the first WAITING slot, and the order bound makes the quotient an
index of the bank. -/
theorem engineTakesTheWaitingSlotNearestTheHead :
    Obligations.EngineTakesTheWaitingSlotNearestTheHead := by
  unfold Obligations.EngineTakesTheWaitingSlotNearestTheHead
  refine fun s => ⟨fun pre sl post sample snap he hq hpre hs => ⟨?_, fun hk => ?_⟩, fun h => ?_⟩
  · rw [State.takeSlot_of_waiting he hq hpre hs, startProgress, offsetStep_eq]
    rfl
  · have hx := offsetStep_lt sample snap.inOffset
    rw [offsetStep_eq] at hx
    exact ⟨(Nat.shiftRight_eq_div_pow _ _).symm, Bank.index_lt hk hx,
      Nat.mod_lt _ snap.bank.interval_pos, rfl, Bank.two_mul_half hk⟩
  · exact h.elim State.takeSlot_of_busy State.takeSlot_of_none_waiting

/-! ### Rounding to nearest (R77) -/

section
variable {n d f H F : Int}

/-- Adding one half before rounding down leaves at most one half between the result and n/F, and less
than one half when the result is below. -/
theorem ediv_add_half_bounds (hH : 0 < H) (hF : 2 * H = F) :
    2 * n - F < 2 * (F * ((n + H) / F)) ∧ 2 * (F * ((n + H) / F)) ≤ 2 * n + F := by
  have hlow := Int.mul_ediv_self_le (x := n + H) (k := F) (by omega)
  have hhigh := Int.lt_mul_ediv_self_add (x := n + H) (k := F) (by omega)
  constructor <;> omega

/-- A fraction of a rising difference stays in it, rounded. -/
theorem ediv_add_half_of_nonneg (hH : 0 < H) (hF : 2 * H = F) (hf : 0 ≤ f) (hfF : f ≤ F)
    (hd : 0 ≤ d) : 0 ≤ (d * f + H) / F ∧ (d * f + H) / F ≤ d := by
  have hlow : 0 ≤ d * f := Int.mul_nonneg hd hf
  have hhigh : d * f ≤ d * F := Int.mul_le_mul_of_nonneg_left hfF hd
  refine ⟨Int.ediv_nonneg (by omega) (by omega), Int.lt_add_one_iff.1 ?_⟩
  exact Int.ediv_lt_of_lt_mul (by omega) (by rw [Int.add_mul]; omega)

/-- A fraction of a falling difference stays in it, rounded. -/
theorem ediv_add_half_of_nonpos (hH : 0 < H) (hF : 2 * H = F) (hf : 0 ≤ f) (hfF : f ≤ F)
    (hd : d ≤ 0) : d ≤ (d * f + H) / F ∧ (d * f + H) / F ≤ 0 := by
  have hlow : d * F ≤ d * f := Int.mul_le_mul_of_nonpos_left hd hfF
  have hhigh : d * f ≤ 0 := Int.mul_nonpos_of_nonpos_of_nonneg hd hf
  refine ⟨Int.le_ediv_of_mul_le (by omega) (by omega), Int.lt_add_one_iff.1 ?_⟩
  exact Int.ediv_lt_of_lt_mul (by omega) (by omega)

/-- Either way the rounded value lies between the two ends. -/
theorem add_ediv_add_half_between {a e : Int} (hH : 0 < H) (hF : 2 * H = F) (hf : 0 ≤ f)
    (hfF : f ≤ F) : min a e ≤ a + ((e - a) * f + H) / F ∧ a + ((e - a) * f + H) / F ≤ max a e := by
  rcases Int.le_total a e with h | h
  · obtain ⟨hlow, hhigh⟩ := ediv_add_half_of_nonneg hH hF hf hfF (Int.sub_nonneg_of_le h)
    rw [min_eq_left h, max_eq_right h]
    constructor <;> omega
  · obtain ⟨hlow, hhigh⟩ := ediv_add_half_of_nonpos hH hF hf hfF (Int.sub_nonpos_of_le h)
    rw [min_eq_right h, max_eq_left h]
    constructor <;> omega

end

/-! ### The interpolated value (R76, R77) -/

theorem toInt_bounds (x : Data) : -32768 ≤ x.toInt ∧ x.toInt ≤ 32767 :=
  ⟨BitVec.le_toInt x, Int.le_of_lt_add_one (BitVec.toInt_lt (x := x))⟩

section
variable {b : Bank}

theorem Bank.half_pos (b : Bank) : (0 : Int) < b.half := Int.natCast_pos.2 (Nat.two_pow_pos _)

theorem Bank.two_mul_half_int (h : b.order.toNat ≤ 10) : 2 * (b.half : Int) = b.interval :=
  mod_cast Bank.two_mul_half h

/-- With no difference to add, the value is the first entry: H/F rounds down to 0. -/
theorem interpolate_of_no_difference {x e : Data} {f : Nat} (h : b.order.toNat ≤ 10)
    (hz : (e.toInt - x.toInt) * f = 0) : interpolate b x e f = x.toInt := by
  have hH := b.half_pos
  have hF := Bank.two_mul_half_int h
  rw [interpolate, hz, Int.zero_add, Int.ediv_eq_zero_of_lt (by omega) (by omega), Int.add_zero]

theorem interpolate_rounds (x e : Data) (f : Nat) (h : b.order.toNat ≤ 10) :
    2 * ((e.toInt - x.toInt) * f) - b.interval <
        2 * (b.interval * (interpolate b x e f - x.toInt)) ∧
      2 * (b.interval * (interpolate b x e f - x.toInt)) ≤
        2 * ((e.toInt - x.toInt) * f) + b.interval := by
  rw [interpolate, add_sub_cancel_left]
  exact ediv_add_half_bounds b.half_pos (Bank.two_mul_half_int h)

theorem interpolate_between (x e : Data) {f : Nat} (h : b.order.toNat ≤ 10) (hf : f < b.interval) :
    min x.toInt e.toInt ≤ interpolate b x e f ∧ interpolate b x e f ≤ max x.toInt e.toInt :=
  add_ediv_add_half_between b.half_pos (Bank.two_mul_half_int h) (Int.natCast_nonneg f)
    (mod_cast hf.le)

end

/-! ### The output clamp (R79) -/

section
variable {snap : Snapshot} {z : Int}

theorem clampOutput_of_lt_lo (h : z < snap.clampLo.toInt) :
    clampOutput snap z = (snap.clampLo, true) := if_pos h

theorem clampOutput_of_hi_lt (hwf : snap.wf) (h : snap.clampHi.toInt < z) :
    clampOutput snap z = (snap.clampHi, true) := by
  obtain ⟨-, hle⟩ := hwf
  rw [clampOutput, if_neg (by omega), if_pos h]

theorem clampOutput_of_between (hlo : snap.clampLo.toInt ≤ z) (hhi : z ≤ snap.clampHi.toInt) :
    clampOutput snap z = (BitVec.ofInt 16 z, false) := by
  rw [clampOutput, if_neg (Int.not_lt.2 hlo), if_neg (Int.not_lt.2 hhi)]

/-- A value between the limits is a word's, so its word keeps it. -/
theorem toInt_ofInt_of_between_clamps (hlo : snap.clampLo.toInt ≤ z)
    (hhi : z ≤ snap.clampHi.toInt) : (BitVec.ofInt 16 z).toInt = z := by
  obtain ⟨hmin, -⟩ := toInt_bounds snap.clampLo
  obtain ⟨-, hmax⟩ := toInt_bounds snap.clampHi
  exact BitVec.toInt_ofInt_eq_self (by decide) (hmin.trans hlo)
    (Int.lt_add_one_of_le (hhi.trans hmax))

/-- The result stays inside the limits, whatever value is clamped. -/
theorem clampOutput_within (hwf : snap.wf) (z : Int) :
    snap.clampLo.toInt ≤ (clampOutput snap z).1.toInt ∧
      (clampOutput snap z).1.toInt ≤ snap.clampHi.toInt := by
  have ⟨_, hle⟩ := hwf
  rcases Int.lt_or_le z snap.clampLo.toInt with hlo | hlo
  · rw [clampOutput_of_lt_lo hlo]
    exact ⟨Int.le_refl _, hle⟩
  rcases Int.lt_or_le snap.clampHi.toInt z with hhi | hhi
  · rw [clampOutput_of_hi_lt hwf hhi]
    exact ⟨hle, Int.le_refl _⟩
  · rw [clampOutput_of_between hlo hhi, toInt_ofInt_of_between_clamps hlo hhi]
    exact ⟨hlo, hhi⟩

end

/-! ### The response (R80, R81) -/

section
variable {snap : Snapshot} {p : Progress} {y : Int} {lastGood : Data}

theorem lookupResponse_of_good (h : p.anyFaulty = false) :
    lookupResponse snap p y lastGood = okResponse snap p y :=
  if_neg (ne_true_of_eq_false h)

theorem lookupResponse_of_faulty (h : p.anyFaulty = true) :
    lookupResponse snap p y lastGood = faultyResponse snap p lastGood :=
  if_pos h

end

/-- Settles O25: with F = 2H, adding H before rounding down is rounding to nearest, and the rounded
part of the difference stays between 0 and the difference. -/
theorem interpolationRoundsToNearestAndIsClamped :
    Obligations.InterpolationRoundsToNearestAndIsClamped := by
  unfold Obligations.InterpolationRoundsToNearestAndIsClamped
  intro snap x e f hwf _ hk hf F a d y
  obtain ⟨hxlo, hxhi⟩ := toInt_bounds x
  obtain ⟨helo, hehi⟩ := toInt_bounds e
  have hF : F = snap.bank.interval := by simp [F, Bank.interval]
  have hH : (snap.bank.half : Int) = 2 ^ (15 - snap.bank.order.toNat) := by simp [Bank.half]
  obtain ⟨hmin, hmax⟩ := interpolate_between x e hk hf
  refine ⟨by omega, ?_, ?_, hmin, hmax, ?_, fun h0 => ?_, fun hxe => ?_, fun p lastGood => ?_,
    fun z _ _ => ?_⟩
  · rw [hF, ← hH]
    rfl
  · rw [hF]
    exact interpolate_rounds x e f hk
  · exact ⟨(le_min hxlo helo).trans hmin, hmax.trans (max_le hxhi hehi)⟩
  · exact interpolate_of_no_difference hk (by simp [h0])
  · exact interpolate_of_no_difference hk (by simp [hxe])
  · exact ⟨lookupResponse_of_good, lookupResponse_of_faulty⟩
  · refine ⟨fun h => ?_, fun h => ?_, fun hlo hhi => ?_, clampOutput_within hwf z⟩
    · simp [clampOutput_of_lt_lo h]
    · simp [clampOutput_of_hi_lt hwf h]
    · simp [clampOutput_of_between hlo hhi, toInt_ofInt_of_between_clamps hlo hhi]

end Sys2Proof.Machine

namespace Sys2Proof.Machine

/-! PROOFS. The error record queue (chapter 6): the queue after each case of Table 6-2, the state and the
COUNT that follow from it for a completed read, and the commands that pop a head record or clear the
loss counter. -/

/-! ### Records and detections (R91 to R94) -/

/-- The loss counter and a record's COUNT stop at 255 (R92, R96). -/
theorem satInc_byte (x : BitVec 8) : satInc x = if x = 255 then 255 else x + 1 := by
  have hmax : BitVec.allOnes 8 = 255 := rfl
  rw [satInc, hmax]
  split
  · assumption
  · rfl

section
variable {d : Detection} {x : ErrorRecord} {pre post l : List ErrorRecord}

@[simp] theorem ErrorRecord.matchesDet_iff :
    x.matchesDet d = true ↔ x.address = d.address ∧ x.kind = d.kind := by
  simp [ErrorRecord.matchesDet]

theorem coalesceFirst_append_cons (frame : BitVec 16) (hpre : ∀ y ∈ pre, y.matchesDet d = false)
    (hx : x.matchesDet d = true) :
    coalesceFirst d frame (pre ++ x :: post) = pre ++ x.coalesce frame :: post := by
  induction pre with
  | nil => simp only [List.nil_append, coalesceFirst, if_pos hx]
  | cons y pre ih =>
    obtain ⟨hy, hrest⟩ := List.forall_mem_cons.mp hpre
    simp only [List.cons_append, coalesceFirst, hy, Bool.false_eq_true, if_false, ih hrest]

theorem removeOldestCorrected_append_cons (hpre : ∀ y ∈ pre, y.kind ≠ .corrected)
    (hx : x.kind = .corrected) : removeOldestCorrected (pre ++ x :: post) = pre ++ post := by
  induction pre with
  | nil => simp only [List.nil_append, removeOldestCorrected, if_pos hx]
  | cons y pre ih =>
    obtain ⟨hy, hrest⟩ := List.forall_mem_cons.mp hpre
    simp only [List.cons_append, removeOldestCorrected, if_neg hy, ih hrest]

theorem find?_matchesDet_eq_none (h : ∀ y ∈ l, ¬(y.address = d.address ∧ y.kind = d.kind)) :
    l.find? (·.matchesDet d) = none :=
  List.find?_eq_none.mpr fun y hy => mt ErrorRecord.matchesDet_iff.mp (h y hy)

end

/-! ### The four cases of Table 6-2 -/

section
variable {q : ErrorQueue} {d : Detection} {frame : BitVec 16} {x : ErrorRecord}
  {pre post : List ErrorRecord}

/-- A record that matches takes the detection (R92). -/
theorem ErrorQueue.file_of_match (hq : q.records = pre ++ x :: post)
    (hpre : ∀ y ∈ pre, ¬(y.address = d.address ∧ y.kind = d.kind))
    (hx : x.address = d.address ∧ x.kind = d.kind) :
    q.file d frame =
      ({ q with records := pre ++ x.coalesce frame :: post }, .coalesced (satInc x.count)) := by
  have hmatch : x.matchesDet d = true := ErrorRecord.matchesDet_iff.mpr hx
  have hother : ∀ y ∈ pre, y.matchesDet d = false := fun y hy =>
    Bool.eq_false_iff.mpr (mt ErrorRecord.matchesDet_iff.mp (hpre y hy))
  have hfind : q.records.find? (·.matchesDet d) = some x := by
    rw [hq, List.find?_append, find?_matchesDet_eq_none hpre, Option.none_or]
    exact List.find?_cons_of_pos hmatch
  simp only [ErrorQueue.file, hfind]
  rw [hq, coalesceFirst_append_cons frame hother hmatch]

section
variable (hnone : ∀ y ∈ q.records, ¬(y.address = d.address ∧ y.kind = d.kind))
include hnone

/-- With no match and room, a record joins the tail (R93). -/
theorem ErrorQueue.file_of_room (hroom : q.records.length < 16) :
    q.file d frame = ({ q with records := q.records ++ [d.record frame] }, .created) := by
  simp only [ErrorQueue.file, find?_matchesDet_eq_none hnone, if_pos hroom]

/-- In a full queue a worse detection displaces the CORRECTED record nearest the head (R94). -/
theorem ErrorQueue.file_of_displacing (hfull : q.records.length = 16) (hd : d.kind ≠ .corrected)
    (hq : q.records = pre ++ x :: post) (hx : x.kind = .corrected)
    (hpre : ∀ y ∈ pre, y.kind ≠ .corrected) :
    q.file d frame =
      ({ records := pre ++ post ++ [d.record frame], loss := satInc q.loss }, .displacing) := by
  have hany : q.records.any (fun r => r.kind == .corrected) = true :=
    List.any_eq_true.mpr ⟨x, by simp [hq], beq_iff_eq.mpr hx⟩
  simp only [ErrorQueue.file, find?_matchesDet_eq_none hnone, if_neg (Nat.not_lt.mpr hfull.ge),
    if_pos (And.intro hd hany)]
  rw [hq, removeOldestCorrected_append_cons hpre hx]

/-- Otherwise a full queue drops the detection (R95). -/
theorem ErrorQueue.file_of_dropped (hfull : q.records.length = 16)
    (hd : d.kind = .corrected ∨ ∀ y ∈ q.records, y.kind ≠ .corrected) :
    q.file d frame = ({ q with loss := satInc q.loss }, .dropped) := by
  have hkeep : ¬(d.kind ≠ .corrected ∧ q.records.any (fun r => r.kind == .corrected) = true) := by
    rintro ⟨hk, hany⟩
    obtain ⟨y, hy, hc⟩ := List.any_eq_true.mp hany
    exact hd.elim hk fun h => h y hy (beq_iff_eq.mp hc)
  simp only [ErrorQueue.file, find?_matchesDet_eq_none hnone, if_neg (Nat.not_lt.mpr hfull.ge),
    if_neg hkeep]

end
end

/-! ### What a completed read files (R10, R97, R98) -/

/-- The detection of a given kind that a completed read offers for filing (R91). -/
def ReadResult.detection (r : ReadResult) (kind : ErrorKind) (src : Source) (ch : Option Chan) :
    Detection where
  kind := kind
  source := src
  address := r.address
  place := r.place
  syndrome := r.syndrome
  channel := ch

section
variable {s : State} {r : ReadResult} {src : Source} {ch : Option Chan}

theorem ReadOutcome.kind_eq_some {o : ReadOutcome} {kind : ErrorKind}
    (h : o = .corrected ∧ kind = .corrected ∨ o = .uncorrectable ∧ kind = .uncorrectable ∨
      o = .poisoned ∧ kind = .poisoned) : o.kind = some kind := by
  rcases h with ⟨rfl, rfl⟩ | ⟨rfl, rfl⟩ | ⟨rfl, rfl⟩ <;> rfl

theorem State.fileRead_of_clean (h : r.outcome = .clean) :
    s.fileRead r src ch = s ∧ s.filedCount r src ch = none := by
  simp only [State.fileRead, State.filedCount, h, ReadOutcome.kind, and_self]

section
variable {kind : ErrorKind} {q : ErrorQueue} {res : FilingResult} (hk : r.outcome.kind = some kind)
  (hf : s.errors.file (r.detection kind src ch) s.link.frame = (q, res))
include hk hf

theorem State.filedCount_of_file : s.filedCount r src ch = res.count := by
  calc s.filedCount r src ch
      = (s.errors.file (r.detection kind src ch) s.link.frame).2.count := by
        rw [State.filedCount, hk]
        rfl
    _ = res.count := by rw [hf]

theorem State.fileRead_of_file : s.fileRead r src ch = { s with
    errors := q
    host := { s.host with flags := { s.host.flags with
      logUncorr := s.host.flags.logUncorr || decide (kind ≠ .corrected)
      logLoss := s.host.flags.logLoss || res.loses } } } := by
  have hbne : (kind != .corrected) = decide (kind ≠ .corrected) := by cases kind <;> rfl
  calc s.fileRead r src ch
      = s.fileDetection (r.detection kind src ch) := by
        rw [State.fileRead, hk]
        rfl
    _ = _ := by rw [State.fileDetection_eq, hf, ReadResult.detection, hbne]

/-- A filing that loses nothing keeps LOG_LOSS (R97). -/
theorem State.fileRead_of_kept (hl : res.loses = false) : s.fileRead r src ch = { s with
    errors := q
    host := { s.host with flags := { s.host.flags with
      logUncorr := s.host.flags.logUncorr || decide (kind ≠ .corrected) } } } := by
  rw [State.fileRead_of_file hk hf, hl, Bool.or_false]

/-- A filing that loses a record or the detection sets LOG_LOSS (R96). -/
theorem State.fileRead_of_lost (hl : res.loses = true) : s.fileRead r src ch = { s with
    errors := q
    host := { s.host with flags := { s.host.flags with
      logUncorr := s.host.flags.logUncorr || decide (kind ≠ .corrected), logLoss := true } } } := by
  rw [State.fileRead_of_file hk hf, hl, Bool.or_true]

end
end

/-- Settles O28: the completed read offers the detection of its outcome's kind, and each of the four
cases of Table 6-2 gives the queue and the result handed back. -/
theorem filingTakesTheFirstCaseThatHolds : Obligations.FilingTakesTheFirstCaseThatHolds := by
  unfold Obligations.FilingTakesTheFirstCaseThatHolds
  refine fun s r src ch => ⟨State.fileRead_of_clean, fun kind hkind => ?_⟩
  intro new other loss uncorr
  have hk : r.outcome.kind = some kind := ReadOutcome.kind_eq_some hkind
  have hloss : loss = satInc s.errors.loss := (satInc_byte s.errors.loss).symm
  refine ⟨fun pre x post hq hpre ha hx => ?_, fun hnone hroom => ?_,
    fun pre x post hnone hfull hd hq hx hpre => ?_, fun hnone hfull hd => ?_⟩
  · intro n
    have hn : n = satInc x.count := (satInc_byte x.count).symm
    have hf := ErrorQueue.file_of_match (d := r.detection kind src ch) (frame := s.link.frame)
      hq hpre ⟨ha, hx⟩
    rw [hn]
    exact ⟨State.fileRead_of_kept hk hf rfl, State.filedCount_of_file hk hf⟩
  · have hf := ErrorQueue.file_of_room (d := r.detection kind src ch) (frame := s.link.frame)
      hnone hroom
    exact ⟨State.fileRead_of_kept hk hf rfl, State.filedCount_of_file hk hf⟩
  · have hf := ErrorQueue.file_of_displacing (d := r.detection kind src ch) (frame := s.link.frame)
      hnone hfull hd hq hx hpre
    rw [hloss]
    exact ⟨State.fileRead_of_lost hk hf rfl, State.filedCount_of_file hk hf⟩
  · have hf := ErrorQueue.file_of_dropped (d := r.detection kind src ch) (frame := s.link.frame)
      hnone hfull hd
    rw [hloss]
    exact ⟨State.fileRead_of_lost hk hf rfl, State.filedCount_of_file hk hf⟩

/-! ### The queues' commands (R101, R102, R134) -/

section
variable {s : State}

theorem State.answer_eq_showing (c : ResultCode) (id : BitVec 8) :
    s.answer c id = s.showing c id := rfl

theorem exec_popError (low : BitVec 8) (s : State) :
    exec (.popError low) s = s.command State.popErrorCommand := rfl

theorem exec_popCompletion (low : BitVec 8) (s : State) :
    exec (.popCompletion low) s = s.command State.popCompletionCommand := rfl

theorem exec_clearLoss (low : BitVec 8) (s : State) :
    exec (.clearLoss low) s = s.command State.clearLossCommand := rfl

/-- A command in RUNNING acts on the state as it stands when no grant is owed. -/
theorem State.command_of_takesCommands (h : s.takesCommands) (f : State → State) :
    s.command f = .next (f s) := by
  obtain ⟨⟨hbus, hgrant⟩, hd⟩ := h
  rw [State.command_of_running hbus hd, State.grantOwed_of_noGrantOwed hgrant]

theorem State.popErrorCommand_of_cons {r : ErrorRecord} {rest : List ErrorRecord}
    (h : s.errors.records = r :: rest) : s.popErrorCommand =
      ({ s with errors := { s.errors with records := rest } } : State).showing .ok 0 := by
  simp only [State.popErrorCommand, h, State.setErrors, State.answer_eq_showing]

theorem State.popErrorCommand_of_nil (h : s.errors.records = []) :
    s.popErrorCommand = s.showing .empty 0 := by
  simp only [State.popErrorCommand, h, State.answer_eq_showing]

/-- The popped record's ticket becomes free (R121). -/
theorem State.popCompletionCommand_of_cons {r : Completion} {rest : List Completion}
    (h : s.maint.completions = r :: rest) : s.popCompletionCommand =
      ({ s with maint := { s.maint with
        completions := rest, ticketsFree := s.maint.ticketsFree + 1 } } : State).showing .ok r.id := by
  simp only [State.popCompletionCommand, h, State.setMaint, State.answer_eq_showing]

theorem State.popCompletionCommand_of_nil (h : s.maint.completions = []) :
    s.popCompletionCommand = s.showing .empty 0 := by
  simp only [State.popCompletionCommand, h, State.answer_eq_showing]

end

/-- Settles O44: the command path refuses in START_UP, and in RUNNING each command acts by the head of
its queue. -/
theorem popsRemoveTheHeadRecord : Obligations.PopsRemoveTheHeadRecord := by
  unfold Obligations.PopsRemoveTheHeadRecord
  intro s low hs
  rw [exec_popError, exec_popCompletion, exec_clearLoss]
  refine ⟨fun hd => ?_, fun hd => ?_⟩
  · obtain ⟨hbus, -⟩ := hs
    exact ⟨State.command_of_startUp hbus hd _, State.command_of_startUp hbus hd _,
      State.command_of_startUp hbus hd _⟩
  · simp only [State.command_of_takesCommands ⟨hs, hd⟩]
    refine ⟨fun r rest h => ?_, fun h => ?_, fun r rest h => ?_, fun h => ?_, rfl⟩
    · rw [State.popErrorCommand_of_cons h]
    · rw [State.popErrorCommand_of_nil h]
    · rw [State.popCompletionCommand_of_cons h]
    · rw [State.popCompletionCommand_of_nil h]

end Sys2Proof.Machine

namespace Sys2Proof.Machine

/-! PROOFS. The job commands (chapter 8): when a FILL range meets the protected set, the checks of
FILL, VERIFY and RETIRE in the order of R123, and the job that is accepted. -/

/-! ### A range meets the protected set (R44, R124) -/

/-- Ranges that each hold an address overlap exactly when one address lies in both. -/
theorem AddrRange.overlaps_iff_exists {r q : AddrRange} (hr : r.lo ≤ r.hi) (hq : q.lo ≤ q.hi) :
    r.overlaps q = true ↔ ∃ x : Nat, q.has x = true ∧ r.has x = true := by
  simp only [AddrRange.overlaps, AddrRange.has, decide_eq_true_eq]
  constructor
  · rintro ⟨hrq, hqr⟩
    exact ⟨max r.lo q.lo, by omega, by omega⟩
  · rintro ⟨x, hqx, hrx⟩
    omega

theorem Bank.range_lo_le_hi (b : Bank) : b.range.lo ≤ b.range.hi :=
  Nat.le_add_right _ _

section
variable {r : AddrRange}

theorem Context.lo_le_hi_of_mem_protectedRanges {c : Context} (h : r ∈ c.protectedRanges) :
    r.lo ≤ r.hi := by
  rw [Context.protectedRanges, List.mem_append, List.mem_ite_nil_right, List.mem_ite_nil_right,
    List.mem_singleton, List.mem_singleton] at h
  rcases h with ⟨-, rfl⟩ | ⟨-, rfl⟩
  · exact c.active.range_lo_le_hi
  · exact c.inactive.range_lo_le_hi

theorem Slot.lo_le_hi_of_mem_boundRanges {sl : Slot} (h : r ∈ sl.boundRanges) : r.lo ≤ r.hi := by
  cases hp : sl.phase <;> simp only [Slot.boundRanges, hp, List.mem_singleton, List.not_mem_nil] at h
  case waiting => exact h ▸ Bank.range_lo_le_hi _
  case reading => exact h ▸ Bank.range_lo_le_hi _

theorem Engine.lo_le_hi_of_mem_boundRanges {e : Engine} (h : r ∈ e.boundRanges) : r.lo ≤ r.hi := by
  cases e <;> simp only [Engine.boundRanges, List.mem_singleton, List.not_mem_nil] at h
  case draining => exact h ▸ Bank.range_lo_le_hi _

/-- Every protected range is a bank range, so it holds an address. -/
theorem State.lo_le_hi_of_mem_protectedRanges {s : State} (h : r ∈ s.protectedRanges) :
    r.lo ≤ r.hi := by
  rw [State.protectedRanges, List.mem_append, List.mem_append, List.mem_flatMap,
    List.mem_flatMap] at h
  rcases h with ⟨c, -, h⟩ | ⟨sl, -, h⟩ | h
  · exact Context.lo_le_hi_of_mem_protectedRanges h
  · exact Slot.lo_le_hi_of_mem_boundRanges h
  · exact Engine.lo_le_hi_of_mem_boundRanges h

end

section
variable {s : State}

theorem State.rangeProtected_iff_exists {q : AddrRange} (hq : q.lo ≤ q.hi) :
    s.rangeProtected q = true ↔ ∃ x : Nat, q.has x = true ∧ s.isProtected x = true := by
  simp only [State.rangeProtected, State.isProtected, List.any_eq_true]
  constructor
  · rintro ⟨r, hr, ho⟩
    obtain ⟨x, hqx, hrx⟩ :=
      (AddrRange.overlaps_iff_exists (State.lo_le_hi_of_mem_protectedRanges hr) hq).mp ho
    exact ⟨x, hqx, r, hr, hrx⟩
  · rintro ⟨x, hqx, r, hr, hrx⟩
    exact ⟨r, hr,
      (AddrRange.overlaps_iff_exists (State.lo_le_hi_of_mem_protectedRanges hr) hq).mpr
        ⟨x, hqx, hrx⟩⟩

/-- A FILL of `n` words from `a` meets the protected set when one of those words lies in it (R124). -/
theorem State.rangeProtected_span {a n : Nat} (hn : 1 ≤ n) :
    s.rangeProtected ⟨a, a + n - 1⟩ = true ↔
      ∃ x : Nat, a ≤ x ∧ x < a + n ∧ s.isProtected x = true := by
  have hmem (x : Nat) : AddrRange.has ⟨a, a + n - 1⟩ x = true ↔ a ≤ x ∧ x < a + n := by
    simp only [AddrRange.has, decide_eq_true_eq]
    omega
  rw [State.rangeProtected_iff_exists (show a ≤ a + n - 1 by omega)]
  simp only [hmem, and_assoc]

end

/-! ### The argument checks (Table 8-2, R123) -/

theorem startValid_eq_true_iff {a : Data} : startValid a = true ↔ a.toNat ≤ 8191 :=
  decide_eq_true_iff

theorem spanValid_eq_true_iff {a b : Data} :
    spanValid a b = true ↔ a.toNat ≤ 8191 ∧ 1 ≤ b.toNat ∧ a.toNat + b.toNat ≤ 8192 := by
  simp only [spanValid, startValid, Bool.and_eq_true, decide_eq_true_eq]

/-! ### The commands, check by check -/

theorem exec_fill (low : BitVec 8) (s : State) :
    exec (.fill low) s = s.command State.fillCommand := rfl

theorem exec_verify (low : BitVec 8) (s : State) :
    exec (.verify low) s = s.command State.verifyCommand := rfl

theorem exec_retire (low : BitVec 8) (s : State) :
    exec (.retire low) s = s.command State.retireCommand := rfl

section
variable {s : State}

theorem State.jobCommands_of_noTicket (h : s.maint.ticketsFree = 0) :
    s.fillCommand = s.showing .noTicket 0 ∧ s.verifyCommand = s.showing .noTicket 0 ∧
      s.retireCommand = s.showing .noTicket 0 := by
  simp only [State.fillCommand, State.verifyCommand, State.retireCommand, if_pos h,
    State.answer_eq_showing, and_self]

section
variable (ht : s.maint.ticketsFree ≠ 0)
include ht

theorem State.fillCommand_of_badArgument (h : spanValid s.maint.argA s.maint.argB = false) :
    s.fillCommand = s.showing .badArgument 0 := by
  simp only [State.fillCommand, if_neg ht, h, Bool.not_false, if_true, State.answer_eq_showing]

theorem State.verifyCommand_of_badArgument (h : spanValid s.maint.argA s.maint.argB = false) :
    s.verifyCommand = s.showing .badArgument 0 := by
  simp only [State.verifyCommand, if_neg ht, h, Bool.not_false, if_true, State.answer_eq_showing]

theorem State.retireCommand_of_badArgument (h : startValid s.maint.argA = false) :
    s.retireCommand = s.showing .badArgument 0 := by
  simp only [State.retireCommand, if_neg ht, h, Bool.not_false, if_true, State.answer_eq_showing]

theorem State.retireCommand_of_valid (h : startValid s.maint.argA = true) :
    s.retireCommand = s.acceptJob .retire (s.maint.argA.extractLsb' 0 13) 1 0 := by
  simp only [State.retireCommand, if_neg ht, h, Bool.not_true, Bool.false_eq_true, if_false]

section
variable (hv : spanValid s.maint.argA s.maint.argB = true)
include hv

theorem State.verifyCommand_of_valid : s.verifyCommand =
    s.acceptJob .verify (s.maint.argA.extractLsb' 0 13) s.maint.argB.toNat 0 := by
  simp only [State.verifyCommand, if_neg ht, hv, Bool.not_true, Bool.false_eq_true, if_false]

/-- The protected set is checked last (R124). -/
theorem State.fillCommand_of_valid : s.fillCommand =
    if s.rangeProtected
        ⟨s.maint.argA.toNat, s.maint.argA.toNat + s.maint.argB.toNat - 1⟩ = true then
      s.showing .rangeBusy 0
    else s.acceptJob .fill (s.maint.argA.extractLsb' 0 13) s.maint.argB.toNat s.maint.argC := by
  simp only [State.fillCommand, if_neg ht, hv, Bool.not_true, Bool.false_eq_true, if_false,
    State.answer_eq_showing]

end
end

/-- What an accepted job changes (R121 to R123, R127, R146), the next ID being that before it. -/
theorem State.acceptJob_eq (k : JobKind) (a : Addr) (n : Nat) (v : Data) :
    s.acceptJob k a n v =
      (({ s with
        maint := { s.maint with
          ticketsFree := s.maint.ticketsFree - 1
          queue := s.maint.queue ++
            [{ kind := k, id := s.maint.nextId, start := a, count := n, value := v }]
          nextId := s.maint.nextId + 1 }
        patrol :=
          if s.patrol.phase = .pacing then { s.patrol with phase := .yielding, timer := none }
          else s.patrol } : State).startJob.showing .ok s.maint.nextId).settle := rfl

end

/-- Settles O42: the command path refuses in START_UP; in RUNNING each check that fails answers before
the next one, and a FILL range overlaps the protected set exactly when one of its words lies in it. -/
theorem jobCommandsAreCheckedInOrder : Obligations.JobCommandsAreCheckedInOrder := by
  unfold Obligations.JobCommandsAreCheckedInOrder
  intro s low hs a n protectedWord taken job
  rw [exec_fill, exec_verify, exec_retire]
  have hstart : s.maint.argA.extractLsb' 0 13 = BitVec.ofNat 13 a := rfl
  have htaken (k : JobKind) (count : Nat) (v : Data) :
      s.acceptJob k (s.maint.argA.extractLsb' 0 13) count v = taken (job k count v) := by
    rw [State.acceptJob_eq, hstart]
  refine ⟨fun hd => ?_, fun hd ht => ?_, fun hd ht => ?_⟩
  · obtain ⟨hbus, -⟩ := hs
    exact ⟨State.command_of_startUp hbus hd _, State.command_of_startUp hbus hd _,
      State.command_of_startUp hbus hd _⟩
  · obtain ⟨hfill, hverify, hretire⟩ := State.jobCommands_of_noTicket ht
    simp only [State.command_of_takesCommands ⟨hs, hd⟩, hfill, hverify, hretire, and_self]
  · simp only [State.command_of_takesCommands ⟨hs, hd⟩]
    refine ⟨fun hbad => ?_, fun hbad => ?_, fun ha => ?_, fun ha hn hend => ?_⟩
    · have hspan : spanValid s.maint.argA s.maint.argB = false := by
        rw [Bool.eq_false_iff, Ne, spanValid_eq_true_iff]
        omega
      rw [State.fillCommand_of_badArgument ht hspan, State.verifyCommand_of_badArgument ht hspan]
      exact ⟨rfl, rfl⟩
    · have hstartBad : startValid s.maint.argA = false := by
        rw [Bool.eq_false_iff, Ne, startValid_eq_true_iff]
        omega
      rw [State.retireCommand_of_badArgument ht hstartBad]
    · rw [State.retireCommand_of_valid ht (startValid_eq_true_iff.mpr ha), htaken]
    · have hspan := spanValid_eq_true_iff.mpr ⟨ha, hn, hend⟩
      rw [State.verifyCommand_of_valid ht hspan, State.fillCommand_of_valid ht hspan, htaken, htaken]
      have hword := State.rangeProtected_span (s := s) (a := a) hn
      exact ⟨rfl, fun hp => congrArg _ (if_pos (hword.mpr hp)),
        fun hp => congrArg _ (if_neg (mt hword.mp hp))⟩

end Sys2Proof.Machine

namespace Sys2Proof.Machine

/-! PROOFS. DEVICE_STATUS (chapter 11): the register as one number whose digits are its three fields,
what each field shows of its owner, and the three counts that LEVELS gives back by division. -/

/-! ### Fields laid side by side -/

/-- A shifted field that stays inside the word, above a field that ends below it: the two do not
overlap, so their or is their sum. -/
theorem toNat_shiftLeft_or {w k : Nat} {x y : BitVec w} (hx : x.toNat * 2 ^ k < 2 ^ w)
    (hy : y.toNat < 2 ^ k) : (x <<< k ||| y).toNat = x.toNat * 2 ^ k + y.toNat := by
  rw [BitVec.toNat_or, BitVec.toNat_shiftLeft, Nat.shiftLeft_eq, Nat.mod_eq_of_lt hx,
    ← Nat.shiftLeft_eq, ← Nat.shiftLeft_add_eq_or_of_lt hy]

theorem bitWord_toNat (b : Bool) : (bitWord b).toNat = b.toNat := by
  cases b <;> rfl

/-! ### What the fields show of their owners (R109, R126, R179) -/

section
variable {s : State}

theorem Maint.busy_eq_true_iff {m : Maint} : m.busy = true ↔ m.run ≠ none ∨ m.queue ≠ [] := by
  simp [Maint.busy, Option.isSome_iff_ne_none]

/-- The free count, slot number by slot number. -/
theorem Sparing.freeCount_eq (sp : Sparing) :
    sp.freeCount = ((List.finRange 16).filter (fun k => sp.slots[k].state = .free)).length := by
  have hslots : sp.slots.toList = (List.finRange 16).map (fun k => sp.slots[k]) :=
    List.ext_getElem (by simp) (by simp)
  rw [Sparing.freeCount, hslots, List.countP_map, List.countP_eq_length_filter]
  rfl

theorem Sparing.freeCount_le (sp : Sparing) : sp.freeCount ≤ 16 :=
  List.countP_le_length.trans_eq sp.slots.length_toList

theorem State.modeField_of_startUp (h : s.store.device = .startUp) : s.modeField = 7 := by
  rw [State.modeField, h]

theorem State.modeField_of_running (h : s.store.device = .running) :
    s.modeField = s.patrol.phase.code := by
  rw [State.modeField, h]

/-- No patrol state has a code above 5 (Table 11-4). -/
theorem PatrolPhase.code_toNat_le (p : PatrolPhase) : p.code.toNat ≤ 5 := by
  cases p <;> decide

/-- MODE 6 is not produced (R179). -/
theorem State.modeField_toNat (s : State) : s.modeField.toNat = 7 ∨ s.modeField.toNat ≤ 5 := by
  cases hd : s.store.device with
  | startUp => exact .inl (congrArg BitVec.toNat (State.modeField_of_startUp hd))
  | running =>
    rw [State.modeField_of_running hd]
    exact .inr s.patrol.phase.code_toNat_le

/-! ### LEVELS (R179) -/

/-- 16 spare slots, 16 error records and 8 lookup slots give 2600. -/
theorem State.levels_le (hq : s.queueBounded) (he : s.errors.wf) : s.levels ≤ 2600 := by
  obtain ⟨hrecords, -⟩ := he
  have hfree := s.sparing.freeCount_le
  unfold State.levels
  omega

/-- The lookup queue depth is a digit below 9 and the error queue depth a digit below 17, so division
by 9 and by 17 gives the three counts back. -/
theorem State.levels_digits (hq : s.queueBounded) (he : s.errors.wf) :
    s.levels % 9 = s.link.queue.length ∧ s.levels / 9 % 17 = s.errors.records.length ∧
      s.levels / 9 / 17 = s.sparing.freeCount := by
  obtain ⟨hrecords, -⟩ := he
  unfold State.levels
  omega

/-! ### The register (R159, R179) -/

theorem State.deviceStatus_toNat (hq : s.queueBounded) (he : s.errors.wf) :
    s.deviceStatus.toNat =
      s.maint.busy.toNat * 2 ^ 15 + (s.modeField.toNat * 2 ^ 12 + s.levels) := by
  have hlevels := State.levels_le hq he
  have hmode := s.modeField_toNat
  have hbusy := s.maint.busy.toNat_le
  have hlow : (BitVec.ofNat 16 s.levels).toNat = s.levels := Nat.mod_eq_of_lt (by omega)
  have hpair : (s.modeField <<< 12 ||| BitVec.ofNat 16 s.levels).toNat =
      s.modeField.toNat * 2 ^ 12 + s.levels := by
    rw [toNat_shiftLeft_or (by omega) (by omega), hlow]
  rw [State.deviceStatus, BitVec.or_assoc,
    toNat_shiftLeft_or (by rw [bitWord_toNat]; omega) (by omega), hpair, bitWord_toNat]

/-- ENGINE_BUSY, MODE and LEVELS are the digits of the word at 2¹⁵, 2¹² and 1. -/
theorem State.deviceStatus_fields (hq : s.queueBounded) (he : s.errors.wf) :
    s.deviceStatus.getLsbD 15 = s.maint.busy ∧
      (s.deviceStatus.extractLsb' 12 3).toNat = s.modeField.toNat ∧
      s.deviceStatus.toNat % 4096 = s.levels := by
  have hword := State.deviceStatus_toNat hq he
  have hlevels := State.levels_le hq he
  have hmode := s.modeField_toNat
  refine ⟨?_, ?_, by omega⟩
  · have hbusy : s.deviceStatus.toNat / 2 ^ 15 % 2 = s.maint.busy.toNat := by
      have := s.maint.busy.toNat_le
      omega
    rw [← BitVec.testBit_toNat, Nat.testBit_eq_decide_div_mod_eq, hbusy]
    cases s.maint.busy <;> rfl
  · rw [BitVec.extractLsb'_toNat, Nat.shiftRight_eq_div_pow]
    omega

end

/-- Settles O39: the register's fields are digits of one number, and so are the three counts within
LEVELS, each below the weight of the next. -/
theorem deviceStatusCountsComeBackByDivision :
    Obligations.DeviceStatusCountsComeBackByDivision := by
  unfold Obligations.DeviceStatusCountsComeBackByDivision
  intro s hq he w levels
  obtain ⟨hbusy, hmode, hlevels⟩ := State.deviceStatus_fields hq he
  obtain ⟨hlookups, hrecords, hfree⟩ := State.levels_digits hq he
  have hw : w = s.deviceStatus := rfl
  have hl : levels = s.levels := hlevels
  rw [hw, hl, ← Sparing.freeCount_eq]
  refine ⟨rfl, ?_, fun hd => ?_, fun hd => ?_, rfl, State.levels_le hq he, fun h6 => ?_,
    hlookups, hrecords, hfree⟩
  · rw [hbusy, Maint.busy_eq_true_iff]
  · exact BitVec.eq_of_toNat_eq (hmode.trans (by rw [State.modeField_of_startUp hd]; rfl))
  · apply BitVec.eq_of_toNat_eq
    rw [hmode, State.modeField_of_running hd]
    cases s.patrol.phase <;> rfl
  · have hsix : s.modeField.toNat = 6 := hmode.symm.trans (congrArg BitVec.toNat h6)
    have hnot := s.modeField_toNat
    omega

end Sys2Proof.Machine

namespace Sys2Proof.Machine

/-! PROOFS. The store arbiter (2.5): what the maintenance engine's claim says of its records, and one
grant written out as a next state, by the claim that it grants. -/

/-! ### What the maintenance engine asks for (R111 to R113, R128, R129, R147, R149) -/

/-- What the records of the maintenance engine ask for, by the operation in progress. -/
inductive State.Wants (s : State) : MaintClaim → Prop
  | retireRead (op : RetireOp) (hop : s.sparing.retire = some op) (hph : op.phase = .read) :
    s.Wants (.claimingRead .retire op.address)
  | spareWrite (op : RetireOp) (c : RetireCopy) (hop : s.sparing.retire = some op)
    (hph : op.phase = .write c) : s.Wants (.spareWrite c.slot c.copy)
  | fillWord (j : RunningJob) (hop : s.sparing.retire = none) (hj : s.maint.run = some j)
    (hk : j.job.kind = .fill) (hs : j.stopping = false) :
    s.Wants (.write .fill j.next j.job.value)
  | verifyRead (j : RunningJob) (hop : s.sparing.retire = none) (hj : s.maint.run = some j)
    (hk : j.job.kind = .verify) (hs : j.stopping = false) : s.Wants (.plainRead .verify j.next)
  | patrolRead (st : PatrolStep) (hop : s.sparing.retire = none) (hj : s.maint.run = none)
    (hph : s.patrol.phase = .claiming) (hst : s.patrol.step = some st) :
    s.Wants (.claimingRead .patrol st.address)
  | writeBack (st : PatrolStep) (hop : s.sparing.retire = none) (hj : s.maint.run = none)
    (hph : s.patrol.phase = .repairing) (hst : s.patrol.step = some st)
    (hr : st.retiring = false) : s.Wants (.write .writeBack st.address st.data)

theorem RunningJob.wants_cases {j : RunningJob} {m : MaintClaim} (h : j.wants = some m) :
    j.stopping = false ∧ (j.job.kind = .fill ∧ m = .write .fill j.next j.job.value ∨
      j.job.kind = .verify ∧ m = .plainRead .verify j.next) := by
  unfold RunningJob.wants at h
  split at h
  · cases h
  · next hs =>
    refine ⟨by simpa using hs, ?_⟩
    cases hk : j.job.kind <;> simp only [hk, Option.some.injEq, reduceCtorEq] at h
    case fill => exact .inl ⟨rfl, h.symm⟩
    case verify => exact .inr ⟨rfl, h.symm⟩

theorem Patrol.wants_cases {p : Patrol} {m : MaintClaim} (h : p.wants = some m) :
    ∃ st, p.step = some st ∧ (p.phase = .claiming ∧ m = .claimingRead .patrol st.address ∨
      p.phase = .repairing ∧ st.retiring = false ∧ m = .write .writeBack st.address st.data) := by
  unfold Patrol.wants at h
  split at h
  · next st hph hst => exact ⟨st, hst, .inl ⟨hph, (Option.some.inj h).symm⟩⟩
  · next st hph hst =>
    split at h
    · cases h
    · next hr => exact ⟨st, hst, .inr ⟨hph, by simpa using hr, (Option.some.inj h).symm⟩⟩
  · cases h

section
variable {s t : State}

theorem State.wants_of_maintWants {m : MaintClaim} (h : s.maintWants = some m) : s.Wants m := by
  unfold State.maintWants at h
  split at h
  · next op hop =>
    cases hph : op.phase <;> simp only [RetireOp.wants, hph, Option.some.injEq] at h <;> subst h
    case read => exact .retireRead op hop hph
    case write c => exact .spareWrite op c hop hph
  · next hop =>
    split at h
    · next j hj =>
      obtain ⟨hs, ⟨hk, rfl⟩ | ⟨hk, rfl⟩⟩ := RunningJob.wants_cases h
      · exact .fillWord j hop hj hk hs
      · exact .verifyRead j hop hj hk hs
    · next hj =>
      obtain ⟨st, hst, ⟨hph, rfl⟩ | ⟨hph, hr, rfl⟩⟩ := Patrol.wants_cases h
      · exact .patrolRead st hop hj hph hst
      · exact .writeBack st hop hj hph hst hr

theorem State.maintClaim_eq_some {m : MaintClaim} (h : s.maintClaim = some m) :
    s.maintGranted = false ∧ s.Wants m := by
  unfold State.maintClaim at h
  split at h
  · cases h
  · next hg => exact ⟨by simpa using hg, State.wants_of_maintWants h⟩

/-! ### One grant (R11 to R13, R16, R164) -/

/-- The state after a posted write has been taken: its word, its slot's poison flag and the counts. -/
def State.takenWrite (s : State) (p : Posted) : State :=
  { s with
    store := { s.store with
      mem := memWrite s.store.mem (s.resolve p.address).key (encodeWord p.data)
      access := some (.write .posted (some (s.resolve p.address).key) .wanted)
      hostWait := 0, maintWait := s.maintWaitAfterHost }
    sparing := { s.sparing with slots := s.sparing.slotsAfterWrite (s.resolve p.address) } }

/-- The state after a posted write has been refused: counted, latched and flagged (R165). -/
def State.refusedWrite (s : State) (a : Addr) : State :=
  ({ s with store := { s.store with
    access := some (.write .posted none .wanted)
    hostWait := 0, maintWait := s.maintWaitAfterHost } } : State).countRefusal a

/-- The state after a maintenance write addressed by a main address (R2, R8). -/
def State.maintWrite (s : State) (tag : WriteTag) (a : Addr) (d : Data) : State :=
  { s with
    store := { s.store with
      mem := memWrite s.store.mem (s.resolve a).key (encodeWord d), maintWait := 0
      access := some (.write tag (some (s.resolve a).key) .wanted) }
    sparing := { s.sparing with slots := s.sparing.slotsAfterWrite (s.resolve a) } }

/-- One grant: the claim granted, and the state after it. -/
inductive State.Grant (s : State) : State → Prop
  | lookup (a : Addr) (hc : s.lookupClaim = some a) :
    s.Grant { s with store := { s.store with
      access := some (.read .lookup (s.sense a) .wanted)
      hostWait := s.waitsAfterLookup.1, maintWait := s.waitsAfterLookup.2 } }
  | prefetch (hc : s.hostClaim = some .prefetch) :
    s.Grant { s with store := { s.store with
      access := some (.read .prefetch (s.sense s.host.pointer) .wanted)
      hostWait := 0, maintWait := s.maintWaitAfterHost } }
  | refused (p : Posted) (hc : s.hostClaim = some .postedWrite) (hp : s.host.posted = some p)
    (hx : s.isProtected p.address.toNat = true) : s.Grant (s.refusedWrite p.address)
  | taken (p : Posted) (hc : s.hostClaim = some .postedWrite) (hp : s.host.posted = some p)
    (hx : s.isProtected p.address.toNat = false) (hm : s.store.mark ≠ some p.address) :
    s.Grant (s.takenWrite p)
  | reported (p : Posted) (hc : s.hostClaim = some .postedWrite) (hp : s.host.posted = some p)
    (hx : s.isProtected p.address.toNat = false) (hm : s.store.mark = some p.address) :
    s.Grant ((s.takenWrite p).reportHostWrite p.address p.data)
  | verifyRead (a : Addr) (hg : s.maintGranted = false) (hw : s.Wants (.plainRead .verify a)) :
    s.Grant { s with store := { s.store with
      access := some (.read .verify (s.sense a) .wanted), maintWait := 0 } }
  | retireRead (a : Addr) (hg : s.maintGranted = false) (hw : s.Wants (.claimingRead .retire a)) :
    s.Grant { s with store := { s.store with
      access := some (.read .retire (s.sense a) .wanted), maintWait := 0, mark := some a } }
  | patrolRead (a : Addr) (hg : s.maintGranted = false) (hw : s.Wants (.claimingRead .patrol a)) :
    s.Grant { s with
      store := { s.store with
        access := some (.read .patrol (s.sense a) .wanted), maintWait := 0, mark := some a }
      patrol := { s.patrol with phase := .checking } }
  | maintWrite (tag : WriteTag) (a : Addr) (d : Data) (hg : s.maintGranted = false)
    (hw : s.Wants (.write tag a d)) : s.Grant (s.maintWrite tag a d)
  | spareWrite (k : SlotNo) (d : Data) (hg : s.maintGranted = false)
    (hw : s.Wants (.spareWrite k d)) :
    s.Grant { s with store := { s.store with
      mem := memWrite s.store.mem (Place.spare k).key (encodeWord d), maintWait := 0
      access := some (.write .spare (some (Place.spare k).key) .wanted) } }

theorem State.hostClaim_cases {c : HostClaim} (h : s.hostClaim = some c) :
    s.accessOf .host = false ∧ (c = .postedWrite ∧ s.host.posted.isSome = true ∨
      c = .prefetch ∧ s.host.posted = none ∧ s.host.holder = .pending) := by
  unfold State.hostClaim at h
  split at h
  · cases h
  · next ha =>
    refine ⟨by simpa using ha, ?_⟩
    split at h
    · next hp => exact .inl ⟨(Option.some.inj h).symm, hp⟩
    · next hp =>
      split at h
      · next hh => exact .inr ⟨(Option.some.inj h).symm, by simpa using hp, hh⟩
      · cases h

theorem State.lookupClaim_eq_some {a : Addr} (h : s.lookupClaim = some a) :
    s.accessOf .lookup = false ∧ s.lookupWants = some a := by
  unfold State.lookupClaim at h
  split at h
  · cases h
  · next ha => exact ⟨by simpa using ha, h⟩

/-! ### The state that each grant makes -/

theorem State.grant_lookup {a : Addr} (h : s.lookupClaim = some a) :
    s.grant .lookup = { s with store := { s.store with
      access := some (.read .lookup (s.sense a) .wanted)
      hostWait := s.waitsAfterLookup.1, maintWait := s.waitsAfterLookup.2 } } := by
  simp only [State.grant, h]
  rfl

theorem State.grant_prefetch (h : s.hostClaim = some .prefetch) :
    s.grant .host = { s with store := { s.store with
      access := some (.read .prefetch (s.sense s.host.pointer) .wanted)
      hostWait := 0, maintWait := s.maintWaitAfterHost } } := by
  simp only [State.grant, h]
  rfl

/-- The grant of a posted write, by the protected set and the mark. -/
theorem State.grant_posted {p : Posted} (h : s.hostClaim = some .postedWrite)
    (hp : s.host.posted = some p) :
    s.grant .host =
      if s.isProtected p.address.toNat = true then s.refusedWrite p.address
      else if s.store.mark = some p.address then
        (s.takenWrite p).reportHostWrite p.address p.data
      else s.takenWrite p := by
  have hx := s.isProtected_countGrant .host p.address.toNat
  have hgrant : s.grant .host = (s.setStore (s.countGrant .host)).grantPosted p := by
    simp only [State.grant, h, State.grantHost, State.setStore_host, hp]
  rw [hgrant, State.grantPosted, hx, State.writeData_eq]
  rfl

theorem State.grant_maintRead {tag : ReadTag} {a : Addr}
    (h : s.maintClaim = some (.plainRead tag a)) :
    s.grant .maint = { s with store := { s.store with
      access := some (.read tag (s.sense a) .wanted), maintWait := 0 } } := by
  simp only [State.grant, h]
  rfl

theorem State.grant_retireRead {a : Addr} (h : s.maintClaim = some (.claimingRead .retire a)) :
    s.grant .maint = { s with store := { s.store with
      access := some (.read .retire (s.sense a) .wanted), maintWait := 0, mark := some a } } := by
  simp only [State.grant, h]
  rfl

theorem State.grant_patrolRead {a : Addr} (h : s.maintClaim = some (.claimingRead .patrol a)) :
    s.grant .maint = { s with
      store := { s.store with
        access := some (.read .patrol (s.sense a) .wanted), maintWait := 0, mark := some a }
      patrol := { s.patrol with phase := .checking } } := by
  simp only [State.grant, h]
  rfl

theorem State.grant_maintWrite {tag : WriteTag} {a : Addr} {d : Data}
    (h : s.maintClaim = some (.write tag a d)) : s.grant .maint = s.maintWrite tag a d := by
  simp only [State.grant, h, State.grantMaint, State.writeData_eq]
  rfl

theorem State.grant_spareWrite {k : SlotNo} {d : Data}
    (h : s.maintClaim = some (.spareWrite k d)) :
    s.grant .maint = { s with store := { s.store with
      mem := memWrite s.store.mem (Place.spare k).key (encodeWord d), maintWait := 0
      access := some (.write .spare (some (Place.spare k).key) .wanted) } } := by
  simp only [State.grant, h]
  rfl

/-- The claimant chosen gets its claim. -/
theorem State.grant_of_choose {c : Claimant} (h : s.choose = some c) : s.Grant (s.grant c) := by
  have hc := s.claim_of_choose h
  cases c with
  | lookup =>
    obtain ⟨a, ha⟩ := Option.isSome_iff_exists.1 hc
    exact State.grant_lookup ha ▸ .lookup a ha
  | host =>
    obtain ⟨k, hk⟩ := Option.isSome_iff_exists.1 hc
    obtain ⟨-, ⟨rfl, hp⟩ | ⟨rfl, -⟩⟩ := State.hostClaim_cases hk
    · obtain ⟨p, hp⟩ := Option.isSome_iff_exists.1 hp
      rw [State.grant_posted hk hp]
      split
      · next hx => exact .refused p hk hp hx
      · next hx =>
        replace hx : s.isProtected p.address.toNat = false := by simpa using hx
        split
        · next hm => exact .reported p hk hp hx hm
        · next hm => exact .taken p hk hp hx hm
    · exact State.grant_prefetch hk ▸ .prefetch hk
  | maint =>
    obtain ⟨m, hm⟩ := Option.isSome_iff_exists.1 hc
    obtain ⟨hg, hw⟩ := State.maintClaim_eq_some hm
    have hw' := hw
    cases hw' with
    | retireRead op => exact State.grant_retireRead hm ▸ .retireRead _ hg hw
    | spareWrite op c => exact State.grant_spareWrite hm ▸ .spareWrite _ _ hg hw
    | fillWord j => exact State.grant_maintWrite hm ▸ .maintWrite _ _ _ hg hw
    | verifyRead j => exact State.grant_maintRead hm ▸ .verifyRead _ hg hw
    | patrolRead st => exact State.grant_patrolRead hm ▸ .patrolRead _ hg hw
    | writeBack st => exact State.grant_maintWrite hm ▸ .maintWrite _ _ _ hg hw

theorem State.settle_of_choose {c : Claimant} (hd : s.store.device = .running)
    (ha : s.store.access = none) (h : s.choose = some c) : s.settle = s.grant c := by
  simp only [State.settle, if_pos (And.intro hd ha), h]

/-- All that the end of an event can do: nothing, or one grant to a free store in RUNNING. -/
theorem State.settle_cases :
    s.settle = s ∨ (s.store.device = .running ∧ s.store.access = none ∧ s.Grant s.settle) := by
  by_cases hg : s.store.device = .running ∧ s.store.access = none
  · obtain ⟨hd, ha⟩ := hg
    cases hc : s.choose with
    | none => exact .inl (s.settle_of_no_grant (.inr (.inr hc)))
    | some c =>
      rw [State.settle_of_choose hd ha hc]
      exact .inr ⟨hd, ha, State.grant_of_choose hc⟩
  · exact .inl (by rw [State.settle, if_neg hg])

/-- A property that a grant keeps, the end of an event keeps. -/
theorem State.settle_keeps {P : State → Prop}
    (h : ∀ t, s.store.device = .running → s.store.access = none → s.Grant t → P t) (hs : P s) :
    P s.settle := by
  rcases s.settle_cases with he | ⟨hd, ha, hg⟩
  · rw [he]; exact hs
  · exact h _ hd ha hg

end

end Sys2Proof.Machine

namespace Sys2Proof.Machine

/-! PROOFS. What a step can do, said once. An owed grant made, a command or a tick either ends without the
arbiter's turn (`State.Quiet`) or makes one change and then gives the arbiter its turn (`State.Active`,
`State.Ends`); `exec_effect` and `step_effect` say that nothing else happens. The invariants of chapters 2
to 10 go by cases on these. -/

/-! ### The facts that a group of commands shares -/

/-- TIMEBASE lies in 8–100 and the window index below its window's size (R169, R173). -/
def HostPort.inRange (h : HostPort) : Prop :=
  (8 ≤ h.timebase.toNat ∧ h.timebase.toNat ≤ 100) ∧ h.index.toNat < h.window.size

/-- The registers changed, the table port as it was. -/
structure HostPort.SamePort (h h' : HostPort) : Prop where
  pointer : h'.pointer = h.pointer
  holder : h'.holder = h.holder
  posted : h'.posted = h.posted
  stretch : h'.stretch = h.stretch
  range : h.inRange → h'.inRange

/-- What a command of the host may make of one context record: descriptors and clamps stay well formed,
a range comes into the protected set only past the FILL ranges, and START_UP leaves the positions. -/
structure State.ChanWrite (s : State) (ch : Chan) (c : Context) : Prop where
  wf : s.channels[ch].wf → c.wf
  ranges : ∀ r ∈ c.protectedRanges,
    r ∈ s.channels[ch].protectedRanges ∨ s.maint.fillOverlaps r = false
  idle : s.store.device = .startUp →
    c.state = s.channels[ch].state ∧ c.armed = s.channels[ch].armed

/-- What time and the interval's setting make of the patrol: its timer counts, or a step starts out of
PACING (R144, R145). -/
def Patrol.Paced (p q : Patrol) : Prop :=
  ∃ i, (∃ t : Option Nat, t.isSome = p.timer.isSome ∧ q = { p with interval := i, timer := t }) ∨
    p.phase = .pacing ∧ q = ({ p with interval := i } : Patrol).startStep

/-- A completed read has filed its detection, if there was a read (R10). -/
def State.Filed (s f : State) : Prop := f = s ∨ ∃ r src ch, f = s.fileRead r src ch

/-! ### Events without the arbiter's turn -/

/-- What a command does that gives the arbiter no turn, and the state after it. -/
inductive State.Quiet (s : State) : Option Instr → State → Prop
  | nothing {o : Option Instr} : s.Quiet o s
  | pinReset :
    s.Quiet (some (.deviceReset .pinAsserted)) (s.deviceReset s.memAfterReset none true)
  | powerOn :
    s.Quiet (some (.deviceReset .powerOn)) (s.deviceReset State.reset.store.mem (some 0) false)
  | release (h : s.store.resetAsserted = true) : s.Quiet (some .resetRelease) { s with
      store := { s.store with resetAsserted := false, fill := some 0 }
      sparing := s.sparing.cleared }
  | fillNext (k : Nat) (hf : s.store.fill = some k) (hk : k + 1 < wordCount) :
    s.Quiet (some .startUpFillWriteCompletion) { s with store := { s.store with
      mem := memWrite s.store.mem k StoredWord.zero, fill := some (k + 1) } }
  | fillLast (k : Nat) (hf : s.store.fill = some k) (hk : ¬k + 1 < wordCount) :
    s.Quiet (some .startUpFillWriteCompletion) { s with
      store := { s.store with
        mem := memWrite s.store.mem k StoredWord.zero, device := .running, fill := none }
      host := { s.host with
        outcome := .none, flags := { s.host.flags with startDone := true } }
      patrol := s.patrol.resume s.maint.busy }
  | disturb (p : Place) (d : BitVec 16) (m : BitVec 6) :
    s.Quiet (some (.storedBitDisturbance p d m))
      (s.putWord p.key (disturbWord (s.word p) d m))
  | delivery (sl : Slot) (rest : List Slot) (w : BitVec 35) (hq : s.link.queue = sl :: rest)
    (hd : sl.isDone = true) : s.Quiet (some .delivery) { s with
      link := ({ s.link with queue := rest, stall := none } : Link).refreshOffer
      outputs := { s.outputs with delivered := w } }
  | linkRstRelease :
    s.Quiet (some .linkRstRelease) { s with link := { s.link with linkRst := false } }
  | linkEnable {o : Option Instr} (b : Bool) :
    s.Quiet o { s with link := { s.link with enable := b } }
  | linkTimeout {o : Option Instr} (v : Data) :
    s.Quiet o ({ s with link := { s.link with timeout := v } } : State).checkStall
  | stretch {o : Option Instr} (st : Stretch) (hd : s.store.device = .running)
    (hs : s.host.stretch = none) (hr : st = .read → s.host.holder = .pending)
    (hw : ∀ v, st = .write v → s.host.posted.isSome = true) :
    s.Quiet o { s with host := { s.host with stretch := some st } }
  | registers {o : Option Instr} (h : HostPort) (out : Outputs) (hp : s.host.SamePort h) :
    s.Quiet o { s with host := h, outputs := out }
  | channel {o : Option Instr} (ch : Chan) (c : Context) (h : HostPort) (hp : s.host.SamePort h)
    (hc : s.ChanWrite ch c) : s.Quiet o { s with channels := s.channels.set ch c, host := h }
  | args {o : Option Instr} (a b c : BitVec 16) :
    s.Quiet o { s with maint := { s.maint with argA := a, argB := b, argC := c } }
  | errors {o : Option Instr} (q : ErrorQueue) (h : HostPort) (hp : s.host.SamePort h)
    (hq : q.records <:+ s.errors.records) : s.Quiet o { s with errors := q, host := h }
  | popCompletion {o : Option Instr} (r : Completion) (rest : List Completion) (h : HostPort)
    (hp : s.host.SamePort h) (hr : s.maint.completions = r :: rest) :
    s.Quiet o { s with
      maint := { s.maint with completions := rest, ticketsFree := s.maint.ticketsFree + 1 }
      host := h }

/-! ### Events that end with the arbiter's turn -/

/-- The change a command or a tick makes before the arbiter's turn, and the state after it. -/
inductive State.Active (s : State) : Option Instr → State → Prop
  | answered {o : Option Instr} (w : BitVec 29) (r : Response) (h : HostPort)
    (hl : s.linkOpen = true) (hp : s.host.SamePort h) :
    s.Active o (({ s with host := h } : State).pushSlot w (.done r))
  | frame {o : Option Instr} (w : BitVec 29) (hl : s.linkOpen = true) :
    s.Active o (s.acceptFrame w)
  | bind {o : Option Instr} (w : BitVec 29) (hl : s.linkOpen = true)
    (hc : s.channels[requestChannel w].state = .active) :
    s.Active o (s.pushSlot w
      (.waiting (requestSample w) s.channels[requestChannel w].snapshot)).takeSlot
  | timers {o : Option Instr} (st : Option StallTimer) (p : Patrol) (f : Flags)
    (hs : st.isSome = s.link.stall.isSome) (hp : s.patrol.Paced p)
    (hover : s.timersNotOverdue →
      ({ s with link := { s.link with stall := st }, patrol := p } : State).timersNotOverdue) :
    s.Active o { s with
      link := { s.link with stall := st }, patrol := p, host := { s.host with flags := f } }
  | linkReset : s.Active (some .linkRstAssert)
      (s.discardSlots.setLink { s.discardSlots.link with linkRst := true })
  | firstRead (r : ReadResult) (i : Interest) (p : Progress) (ch : Chan) (n : Snapshot)
    (ha : s.store.access = some (.read .lookup r i)) (he : s.engine = .firstRead p)
    (hr : readingSlot s.link.queue = some (ch, n)) :
    s.Active (some .lookupReadCompletion)
      (((s.setAccess none).fileRead r .lookup (some ch)).setEngine
        (.secondRead (p.note r.outcome) ⟨r.data, r.outcome⟩))
  | lastRead (r : ReadResult) (i : Interest) (p : Progress) (ch : Chan) (n : Snapshot) (y : Int)
    (ha : s.store.access = some (.read .lookup r i)) (he : s.engine.evaluating = true)
    (hr : readingSlot s.link.queue = some (ch, n)) :
    s.Active (some .lookupReadCompletion)
      (((s.setAccess none).fileRead r .lookup (some ch)).completeLookup ch n p y)
  | drained (r : ReadResult) (i : Interest) (ch : Chan) (b : Bank) (f : Bool) (q : State)
    (ha : s.store.access = some (.read .lookup r i)) (he : s.engine = .draining ch b f)
    (hq : q = (s.setAccess none).setEngine .idle ∨
      q = ((s.setAccess none).setEngine .idle).drainStale r ch f) :
    s.Active (some .drainedReadCompletion) q.takeSlot
  | prefetched (r : ReadResult) (i : Interest)
    (ha : s.store.access = some (.read .prefetch r i)) :
    s.Active (some .prefetchCompletion) ((s.setAccess none).prefetchDone r i)
  | postDone (k : Option Nat) (i : Interest) (ha : s.store.access = some (.write .posted k i))
    (hs : ∀ v, s.host.stretch ≠ some (.write v)) :
    s.Active (some .postedWriteCompletion)
      ((s.setAccess none).setHost { s.host with posted := none })
  | postNext (k : Option Nat) (i : Interest) (v : Data)
    (ha : s.store.access = some (.write .posted k i)) (hs : s.host.stretch = some (.write v)) :
    s.Active (some .postedWriteCompletion) ((s.setAccess none).postWrite v)
  | freed (a : Access) (c : Instr) (ha : s.store.access = some a) (hc : c ∈ a.completions)
    (hl : a.claimant ≠ .lookup) (hp : ∀ r, a = .read .patrol r .wanted → s.patrol.step = none) :
    s.Active (some c) (s.setAccess none)
  | wordEnd (a : Access) (c : Instr) (f : State) (j j' : RunningJob) (out : JobOutcome)
    (ha : s.store.access = some a) (hc : c ∈ a.completions)
    (hk : (∃ k, a = .write .fill k .wanted) ∨ ∃ r, a = .read .verify r .wanted)
    (hf : (s.setAccess none).Filed f) (hj : s.maint.run = some j) (hj' : j'.job = j.job) :
    s.Active (some c) (f.endJob j' out none)
  | wordNext (a : Access) (c : Instr) (f : State) (j j' : RunningJob)
    (ha : s.store.access = some a) (hc : c ∈ a.completions)
    (hk : (∃ k, a = .write .fill k .wanted) ∨ ∃ r, a = .read .verify r .wanted)
    (hf : (s.setAccess none).Filed f) (hj : s.maint.run = some j) (hj' : j'.job = j.job)
    (hw : j'.wordsDone = j.wordsDone + 1) (hn : j'.wordsDone ≠ j.job.count) :
    s.Active (some c) (f.setMaint { f.maint with run := some j' })
  | retireAlloc (r : ReadResult) (f : State) (op : RetireOp) (c : RetireCopy)
    (ha : s.store.access = some (.read .retire r .wanted)) (hop : s.sparing.retire = some op)
    (hf : (s.setAccess none).Filed f) (hk : s.sparing.lowestFree = some c.slot) :
    s.Active (some .retireReadCompletion)
      (f.setSparing { f.sparing with retire := some { op with phase := .write c } })
  | retireNoSpare (r : ReadResult) (f : State) (op : RetireOp)
    (ha : s.store.access = some (.read .retire r .wanted)) (hop : s.sparing.retire = some op)
    (hf : (s.setAccess none).Filed f) :
    s.Active (some .retireReadCompletion) (f.retireNoSpare op r)
  | commit (k : Option Nat) (op : RetireOp) (c : RetireCopy)
    (ha : s.store.access = some (.write .spare k .wanted)) (hop : s.sparing.retire = some op)
    (hc : op.phase = .write c) :
    s.Active (some .spareWriteCompletion)
      (((s.setAccess none).mapCommit op.address c).retireDone op c)
  | patrolRead (r : ReadResult) (f : State) (st : PatrolStep) (n : Option (BitVec 8))
    (ha : s.store.access = some (.read .patrol r .wanted)) (hst : s.patrol.step = some st)
    (hf : (s.setAccess none).Filed f) :
    s.Active (some .patrolReadCompletion) (f.patrolAct st r n)
  | writeBack (k : Option Nat) (st : PatrolStep)
    (ha : s.store.access = some (.write .writeBack k .wanted)) (hst : s.patrol.step = some st) :
    s.Active (some .writeBackCompletion) (s.setAccess none).endStep
  | movePointer {o : Option Instr} (a : Addr) (hd : s.store.device = .running)
    (hs : s.host.stretch = none) : s.Active o (s.movePointer a)
  | tableRead {o : Option Instr} (d : Data) (hd : s.store.device = .running)
    (hs : s.host.stretch = none) : s.Active o (s.endTableRead d)
  | tableStart {o : Option Instr} (hd : s.store.device = .running) (hs : s.host.stretch = none) :
    s.Active o { s with host := { s.host with holder := .pending, stretch := some .read } }
  | post {o : Option Instr} (v : Data) (hd : s.store.device = .running)
    (hs : s.host.stretch = none) (hp : s.host.posted = none) : s.Active o (s.postWrite v)
  | patrolCtrl {o : Option Instr} (v : Data) :
    s.Active o (s.setPatrol (s.patrol.writeCtrl v)).actOnEnable
  | job {o : Option Instr} (kind : JobKind) (start : Addr) (count : Nat) (value : Data)
    (hd : s.store.device = .running) (ht : s.maint.ticketsFree ≠ 0)
    (hwf : 1 ≤ count ∧ start.toNat + count ≤ 8192)
    (hx : kind = .fill → s.rangeProtected ⟨start.toNat, start.toNat + count - 1⟩ = false) :
    s.Active o (((s.setMaint (s.maint.accept kind start count value)).setPatrol
      s.patrol.yieldToJob).startJob.answer .ok s.maint.nextId)
  | abort {o : Option Instr} (hd : s.store.device = .running) :
    s.Active o (((if s.maint.run.isSome ∧ s.abortRunning.1.isNone then s.withdrawMaint
        else s).setMaint { s.maint with
      queue := []
      run := s.abortRunning.1
      completions := s.maint.completions ++ s.abortRunning.2 ++
        s.maint.queue.map Job.abortedRecord }).leaveYielding.answer .ok 0)
  | softReset {o : Option Instr} (hd : s.store.device = .running) (hs : s.host.stretch = none) :
    s.Active o s.softReset

/-- The arbiter's turn at the end of an event; a next claim that the front command withdraws may be left
waiting (R11, R87, R137). -/
inductive State.Ends (v : State) : State → Prop
  | settle : v.Ends v.settle
  | lookup (p : Progress) (e : Entry) (h : v.engine = .secondRead p e) :
    v.Ends (v.settleTogether .lookup)
  | maint (j : RunningJob) (h : v.maint.run = some j) : v.Ends (v.settleTogether .maint)

/-- What a command or a tick makes of a state in which no grant is owed. -/
def State.Effect (s : State) (o : Option Instr) (t : State) : Prop :=
  s.Quiet o t ∨ ∃ v, s.Active o v ∧ v.Ends t

section
variable {s t v : State} {o : Option Instr}

theorem State.Quiet.effect (h : s.Quiet o t) : s.Effect o t := .inl h

theorem State.Active.effect (h : s.Active o v) : s.Effect o v.settle := .inr ⟨v, h, .settle⟩

/-! ### Registers (10.1, 10.3, 10.5, 10.6, 9.1, 4.3) -/

theorem HostPort.SamePort.refl (h : HostPort) : h.SamePort h := ⟨rfl, rfl, rfl, rfl, id⟩

/-- A result code touches the registers alone (R172). -/
theorem State.answer_samePort (c : ResultCode) (id : BitVec 8) :
    s.host.SamePort (s.answer c id).host := ⟨rfl, rfl, rfl, rfl, fun h => h⟩

theorem State.answer_effect (c : ResultCode) (id : BitVec 8) : s.Effect o (s.answer c id) :=
  (Quiet.registers (s.answer c id).host s.outputs (State.answer_samePort c id)).effect

theorem State.writeIntStatus_effect (v : Data) : s.Effect o (s.writeIntStatus v) :=
  (Quiet.registers { s.host with flags := s.host.flags.clearBits v } s.outputs
    ⟨rfl, rfl, rfl, rfl, fun h => h⟩).effect

theorem State.writeIntEnable_effect (v : Data) : s.Effect o (s.writeIntEnable v) :=
  (Quiet.registers { s.host with intEnable := v.extractLsb' 0 11 } s.outputs
    ⟨rfl, rfl, rfl, rfl, fun h => h⟩).effect

theorem State.clearPortStatus_effect (v : Data) : s.Effect o (s.clearPortStatus v) := by
  unfold State.clearPortStatus
  split
  · exact (Quiet.registers { s.host with refusedCount := 0 } s.outputs
      ⟨rfl, rfl, rfl, rfl, fun h => h⟩).effect
  · exact (Quiet.nothing).effect

theorem State.writeTimebase_effect (v : Data) : s.Effect o (s.writeTimebase v) := by
  unfold State.writeTimebase
  dsimp only
  split
  · next ht =>
    exact (Quiet.registers { s.host with timebase := v.extractLsb' 0 7 } s.outputs
      ⟨rfl, rfl, rfl, rfl, fun ⟨_, hi⟩ => ⟨ht, hi⟩⟩).effect
  · exact (Quiet.nothing).effect

theorem Window.size_pos (w : Window) : 0 < w.size ∧ w.size ≤ 256 := by
  cases w <;> decide

/-- An index modulo its window's size lies below it (R169, R170). -/
theorem toNat_ofNat_mod_size_lt (n : Nat) (w : Window) :
    (BitVec.ofNat 8 (n % w.size)).toNat < w.size := by
  obtain ⟨hpos, hle⟩ := w.size_pos
  have hlt := Nat.mod_lt n hpos
  rw [BitVec.toNat_ofNat, Nat.mod_eq_of_lt (by omega)]
  exact hlt

theorem State.writeWinAddr_effect (v : Data) : s.Effect o (s.writeWinAddr v) :=
  (Quiet.registers (s := s) (s.writeWinAddr v).host s.outputs
    ⟨rfl, rfl, rfl, rfl, fun ⟨ht, _⟩ => ⟨ht, toNat_ofNat_mod_size_lt _ _⟩⟩).effect

/-- The window index advances inside its window, other registers changing or not. -/
theorem HostPort.samePort_advance (o : WinOutcome) : s.host.SamePort { s.host with
    winStatus := o, index := nextIndex s.host.window s.host.index } :=
  ⟨rfl, rfl, rfl, rfl, fun ⟨ht, _⟩ => ⟨ht, toNat_ofNat_mod_size_lt _ _⟩⟩

theorem State.readWinData_effect : s.Effect o ((s.returnData s.winData).advanceIndex) :=
  (Quiet.registers { s.host with index := nextIndex s.host.window s.host.index }
    { s.outputs with readData := s.winData } (HostPort.samePort_advance s.host.winStatus)).effect

theorem State.writeLinkCtrl_effect (v : Data) : s.Effect o (s.writeLinkCtrl v) :=
  (Quiet.linkEnable (v.getLsbD 0)).effect

theorem State.writeLinkTimeout_effect (v : Data) : s.Effect o (s.writeLinkTimeout v) :=
  (Quiet.linkTimeout v).effect

/-! ### The CONTEXT window (R26 to R28) -/

theorem Bank.fits_iff {b : Bank} : b.fits = true ↔ b.base.toNat + 2 ^ b.order.toNat ≤ 8191 :=
  decide_eq_true_iff

/-- A descriptor that is not locked is neither active in a live channel nor armed (R27). -/
theorem Context.protectedRanges_setBank {c : Context} {n : BankName} (h : c.locked n = false)
    (b : Bank) : (c.setBank n b).protectedRanges = c.protectedRanges := by
  unfold Context.locked at h
  cases n <;> cases ha : c.activeBank <;>
    simp_all [Context.setBank, Context.protectedRanges, Context.live, Context.active,
      Context.inactive, Context.bank, BankName.other]

/-- A context write that answers OK or refuses keeps descriptors and clamps well formed, the protected
ranges, and the position of the channel (R26 to R28). -/
structure Context.FieldWrite (c c' : Context) : Prop where
  wf : c.wf → c'.wf
  ranges : c'.protectedRanges = c.protectedRanges
  state : c'.state = c.state
  armed : c'.armed = c.armed

theorem Context.FieldWrite.refl (c : Context) : c.FieldWrite c := ⟨id, rfl, rfl, rfl⟩

/-- A checked descriptor in a bank that is not locked. -/
theorem Context.fieldWrite_setBank {c : Context} {n : BankName} {b : Bank}
    (hl : c.locked n = false) (hb : c.wf → b.wf) : c.FieldWrite (c.setBank n b) := by
  refine ⟨fun h => ?_, Context.protectedRanges_setBank hl b, by cases n <;> rfl,
    by cases n <;> rfl⟩
  obtain ⟨hwa, hwb, hclamp⟩ := id h
  cases n
  · exact ⟨hb h, hwb, hclamp⟩
  · exact ⟨hwa, hb h, hclamp⟩

theorem Context.wf_bank {c : Context} (h : c.wf) (n : BankName) : (c.bank n).wf := by
  obtain ⟨hwa, hwb, -⟩ := h
  cases n
  · exact hwa
  · exact hwb

theorem Context.writeBase_fieldWrite (c : Context) (n : BankName) (v : Data) :
    c.FieldWrite (c.writeBase n v).2 := by
  unfold Context.writeBase
  dsimp only
  split
  · exact .refl c
  · next hl =>
    split
    · next hf =>
      refine Context.fieldWrite_setBank (by simpa using hl) fun h => ⟨?_, hf⟩
      obtain ⟨ho, -⟩ := Context.wf_bank h n
      exact ho
    · exact .refl c

theorem Context.writeOrder_fieldWrite (c : Context) (n : BankName) (v : Data) :
    c.FieldWrite (c.writeOrder n v).2 := by
  unfold Context.writeOrder
  generalize (if v.getLsbD 8 = true then Mode.linear else .nearest) = m
  dsimp only
  split
  · exact .refl c
  · next hl =>
    split
    · next hf =>
      rw [Bool.and_eq_true] at hf
      exact Context.fieldWrite_setBank (by simpa using hl) fun _ => hf
    · exact .refl c

/-- A write that leaves the descriptors, the position and the order of the clamp pair. -/
theorem Context.fieldWrite_of_banks {c c' : Context} (ha : c'.bankA = c.bankA)
    (hb : c'.bankB = c.bankB) (hn : c'.activeBank = c.activeBank) (hs : c'.state = c.state)
    (hr : c'.armed = c.armed)
    (hc : c.clampLo.toInt ≤ c.clampHi.toInt → c'.clampLo.toInt ≤ c'.clampHi.toInt) :
    c.FieldWrite c' := by
  have hbank : ∀ n, c'.bank n = c.bank n := fun n => by cases n <;> simp [Context.bank, ha, hb]
  have hlive : c'.live = c.live := by rw [Context.live, Context.live, hs]
  have hactive : c'.active = c.active := by rw [Context.active, Context.active, hbank, hn]
  have hinactive : c'.inactive = c.inactive := by rw [Context.inactive, Context.inactive, hbank, hn]
  refine ⟨fun ⟨hwa, hwb, hclamp⟩ => ⟨ha ▸ hwa, hb ▸ hwb, hc hclamp⟩, ?_, hs, hr⟩
  rw [Context.protectedRanges, Context.protectedRanges, hlive, hactive, hinactive, hr]

theorem Context.writeField_fieldWrite (c : Context) (f : Nat) (v : Data) :
    c.FieldWrite (c.writeField f v).2 := by
  unfold Context.writeField
  split
  · exact c.writeBase_fieldWrite .a v
  · exact c.writeOrder_fieldWrite .a v
  · exact c.writeBase_fieldWrite .b v
  · exact c.writeOrder_fieldWrite .b v
  · exact Context.fieldWrite_of_banks rfl rfl rfl rfl rfl id
  · split
    · next h =>
      exact Context.fieldWrite_of_banks rfl rfl rfl rfl rfl fun _ => BitVec.sle_iff_toInt_le.1 h
    · exact .refl c
  · split
    · next h =>
      exact Context.fieldWrite_of_banks rfl rfl rfl rfl rfl fun _ => BitVec.sle_iff_toInt_le.1 h
    · exact .refl c
  · split
    · exact Context.fieldWrite_of_banks rfl rfl rfl rfl rfl id
    · exact .refl c
  · exact Context.fieldWrite_of_banks rfl rfl rfl rfl rfl id
  · exact Context.fieldWrite_of_banks rfl rfl rfl rfl rfl id
  · exact .refl c

theorem State.writeWinData_effect (v : Data) : s.Effect o (s.writeWinData v) := by
  unfold State.writeWinData
  split
  · have hw := s.channels[indexChannel s.host.index].writeField_fieldWrite
      (indexField s.host.index) v
    exact (Quiet.channel _ _ _ (HostPort.samePort_advance _)
      ⟨hw.wf, fun r hr => .inl (hw.ranges ▸ hr), fun _ => ⟨hw.state, hw.armed⟩⟩).effect
  · exact (Quiet.registers _ s.outputs (HostPort.samePort_advance .readOnly)).effect

/-! ### The table port (10.2) -/

theorem State.writeTablePointer_effect (hs : s.host.stretch = none) (v : Data) :
    s.Effect o (s.writeTablePointer v) := by
  unfold State.writeTablePointer
  split
  · exact (Quiet.nothing).effect
  · next hd => exact (Active.movePointer _ hd hs).effect

theorem State.readTableData_effect (hs : s.host.stretch = none) : s.Effect o s.readTableData := by
  unfold State.readTableData
  split
  · exact (Quiet.registers s.host { s.outputs with readData := 0 } (.refl _)).effect
  · next hd =>
    unfold State.readHolder
    split
    · exact (Active.tableRead _ hd hs).effect
    · next hh => exact (Quiet.stretch .read hd hs (fun _ => hh) (by simp)).effect
    · exact (Active.tableStart hd hs).effect

theorem State.writeTableData_effect (hs : s.host.stretch = none) (v : Data) :
    s.Effect o (s.writeTableData v) := by
  unfold State.writeTableData
  split
  · exact (Quiet.nothing).effect
  · next hd =>
    unfold State.post
    split
    · next hp => exact (Quiet.stretch (.write v) hd hs (by simp) (fun _ _ => hp)).effect
    · next hp => exact (Active.post v hd hs (by simpa using hp)).effect

/-! ### The commands (10.4) -/

theorem Context.mem_protectedRanges {c : Context} {r : AddrRange} :
    r ∈ c.protectedRanges ↔
      c.state ≠ .disabled ∧ r = c.active.range ∨ c.armed = true ∧ r = c.inactive.range := by
  simp [Context.protectedRanges, Context.live]

/-- A command that changes one record and answers. -/
theorem State.setChan_answer_effect {ch : Chan} {c : Context} {k : ResultCode} {id : BitVec 8}
    (hc : s.ChanWrite ch c) : s.Effect o ((s.setChan ch c).answer k id) :=
  (Quiet.channel ch c _ (State.answer_samePort k id) hc).effect

/-- In RUNNING a change of position alone keeps the descriptors; a range that it brings in must be past
the FILL ranges. -/
theorem State.chanWrite_of_position {ch : Chan} {c : Context} (hd : s.store.device = .running)
    (hwf : s.channels[ch].wf → c.wf)
    (hr : ∀ r ∈ c.protectedRanges,
      r ∈ s.channels[ch].protectedRanges ∨ s.maint.fillOverlaps r = false) : s.ChanWrite ch c :=
  ⟨hwf, hr, fun h => by simp [hd] at h⟩

theorem State.enableChan_effect (hd : s.store.device = .running) (ch : Chan) :
    s.Effect o (s.enableChan ch) := by
  unfold State.enableChan
  dsimp only
  split
  · exact State.answer_effect _ _
  · split
    · exact State.answer_effect _ _
    · next hf =>
      refine State.setChan_answer_effect (State.chanWrite_of_position hd id fun r hr => ?_)
      rw [Context.mem_protectedRanges] at hr ⊢
      rcases hr with ⟨-, rfl⟩ | ⟨ha, rfl⟩
      · exact .inr (Bool.not_eq_true _ ▸ hf)
      · exact .inl (.inr ⟨ha, rfl⟩)

theorem State.disableChan_effect (hd : s.store.device = .running) (ch : Chan) :
    s.Effect o (s.disableChan ch) := by
  refine State.setChan_answer_effect (State.chanWrite_of_position hd id fun r hr => ?_)
  rw [Context.mem_protectedRanges] at hr ⊢
  rcases hr with ⟨hn, -⟩ | h
  · exact absurd rfl hn
  · exact .inl (.inr h)

theorem State.resumeChan_effect (hd : s.store.device = .running) (ch : Chan) :
    s.Effect o (s.resumeChan ch) := by
  unfold State.resumeChan
  dsimp only
  split
  · next hc =>
    refine State.setChan_answer_effect (State.chanWrite_of_position hd id fun r hr => ?_)
    rw [Context.mem_protectedRanges] at hr ⊢
    rcases hr with ⟨-, h⟩ | h
    · exact .inl (.inl ⟨fun hn => ChanState.noConfusion (hc.symm.trans hn), h⟩)
    · exact .inl (.inr h)
  · exact State.answer_effect _ _

theorem State.armChan_effect (hd : s.store.device = .running) (ch : Chan) :
    s.Effect o (s.armChan ch) := by
  unfold State.armChan
  dsimp only
  split
  · exact State.answer_effect _ _
  · split
    · exact State.answer_effect _ _
    · next hf =>
      refine State.setChan_answer_effect (State.chanWrite_of_position hd id fun r hr => ?_)
      rw [Context.mem_protectedRanges] at hr ⊢
      rcases hr with h | ⟨-, rfl⟩
      · exact .inl (.inl h)
      · exact .inr (Bool.not_eq_true _ ▸ hf)

theorem State.disarmChan_effect (hd : s.store.device = .running) (ch : Chan) :
    s.Effect o (s.disarmChan ch) := by
  unfold State.disarmChan
  dsimp only
  split
  · refine State.setChan_answer_effect (State.chanWrite_of_position hd id fun r hr => ?_)
    rw [Context.mem_protectedRanges] at hr ⊢
    rcases hr with h | ⟨hn, -⟩
    · exact .inl (.inl h)
    · cases hn
  · exact State.answer_effect _ _

/-- The start field of a job is JOB_ARG_A, when that is an address (R123). -/
theorem toNat_start {a : Data} (h : a.toNat ≤ 8191) : (a.extractLsb' 0 13).toNat = a.toNat := by
  rw [BitVec.extractLsb'_toNat, Nat.shiftRight_zero, Nat.mod_eq_of_lt (by omega)]

theorem State.acceptJob_effect {kind : JobKind} {start : Addr} {count : Nat} {value : Data}
    (hd : s.store.device = .running) (ht : s.maint.ticketsFree ≠ 0)
    (hwf : 1 ≤ count ∧ start.toNat + count ≤ 8192)
    (hx : kind = .fill → s.rangeProtected ⟨start.toNat, start.toNat + count - 1⟩ = false) :
    s.Effect o (s.acceptJob kind start count value) :=
  (Active.job kind start count value hd ht hwf hx).effect

theorem State.fillCommand_effect (hd : s.store.device = .running) :
    s.Effect o s.fillCommand := by
  by_cases ht : s.maint.ticketsFree = 0
  · rw [(State.jobCommands_of_noTicket ht).1]
    exact State.answer_effect _ _
  · cases hv : spanValid s.maint.argA s.maint.argB with
    | false => rw [State.fillCommand_of_badArgument ht hv]; exact State.answer_effect _ _
    | true =>
      obtain ⟨ha, hb, hab⟩ := spanValid_eq_true_iff.1 hv
      rw [State.fillCommand_of_valid ht hv]
      split
      · exact State.answer_effect _ _
      · next hp =>
        rw [← toNat_start ha] at hab hp
        exact State.acceptJob_effect hd ht ⟨hb, hab⟩ fun _ => by simpa using hp

theorem State.verifyCommand_effect (hd : s.store.device = .running) :
    s.Effect o s.verifyCommand := by
  by_cases ht : s.maint.ticketsFree = 0
  · rw [(State.jobCommands_of_noTicket ht).2.1]
    exact State.answer_effect _ _
  · cases hv : spanValid s.maint.argA s.maint.argB with
    | false => rw [State.verifyCommand_of_badArgument ht hv]; exact State.answer_effect _ _
    | true =>
      obtain ⟨ha, hb, hab⟩ := spanValid_eq_true_iff.1 hv
      rw [State.verifyCommand_of_valid ht hv]
      rw [← toNat_start ha] at hab
      exact State.acceptJob_effect hd ht ⟨hb, hab⟩ (by simp)

theorem State.retireCommand_effect (hd : s.store.device = .running) :
    s.Effect o s.retireCommand := by
  by_cases ht : s.maint.ticketsFree = 0
  · rw [(State.jobCommands_of_noTicket ht).2.2]
    exact State.answer_effect _ _
  · cases hv : startValid s.maint.argA with
    | false => rw [State.retireCommand_of_badArgument ht hv]; exact State.answer_effect _ _
    | true =>
      have ha := startValid_eq_true_iff.1 hv
      rw [State.retireCommand_of_valid ht hv]
      have hlt := (s.maint.argA.extractLsb' 0 13).isLt
      exact State.acceptJob_effect hd ht ⟨le_rfl, by omega⟩ (by simp)

theorem State.popErrorCommand_effect : s.Effect o s.popErrorCommand := by
  unfold State.popErrorCommand
  split
  · next r rest hr =>
    exact (Quiet.errors _ _ (State.answer_samePort .ok 0)
      (by rw [hr]; exact List.suffix_cons r rest)).effect
  · exact State.answer_effect _ _

theorem State.popCompletionCommand_effect : s.Effect o s.popCompletionCommand := by
  unfold State.popCompletionCommand
  split
  · next r rest hr =>
    exact (Quiet.popCompletion r rest _ (State.answer_samePort .ok r.id) hr).effect
  · exact State.answer_effect _ _

theorem State.clearLossCommand_effect : s.Effect o s.clearLossCommand :=
  (Quiet.errors (s := s) { s.errors with loss := 0 } _ (State.answer_samePort .ok 0)
    (List.suffix_refl _)).effect

/-- A command of Table 10-6, handed to its owner. -/
theorem State.runCommand_effect (hd : s.store.device = .running) (hs : s.host.stretch = none)
    (low : BitVec 8) (k : HostCommand) : s.Effect o (s.runCommand low k) := by
  cases k with
  | enable => exact State.enableChan_effect hd _
  | disable => exact State.disableChan_effect hd _
  | resume => exact State.resumeChan_effect hd _
  | arm => exact State.armChan_effect hd _
  | disarm => exact State.disarmChan_effect hd _
  | fill => exact State.fillCommand_effect hd
  | verify => exact State.verifyCommand_effect hd
  | retire => exact State.retireCommand_effect hd
  | abortJobs => exact (Active.abort hd).effect
  | popError => exact State.popErrorCommand_effect
  | popCompletion => exact State.popCompletionCommand_effect
  | clearLoss => exact State.clearLossCommand_effect
  | softReset => exact (Active.softReset hd hs).effect

theorem State.takeCommandWord_effect (hd : s.store.device = .running)
    (hs : s.host.stretch = none) (w : Data) : s.Effect o (s.takeCommandWord w) := by
  unfold State.takeCommandWord
  split
  · exact State.runCommand_effect hd hs _ _
  · exact State.answer_effect _ _

/-! ### The timers (4.6, 9.3) -/

/-- After its check a stall timer is not overdue (R61, R62). -/
theorem State.checkStall_notOverdue (u : StallTimer) (h : u ∈ s.checkStall.link.stall) :
    u.expired = true ∨ s.link.timeout = 0 ∨ u.elapsed < s.link.timeout.toNat := by
  unfold State.checkStall at h
  split at h
  · simp only [State.expireStall, State.raiseLinkStall, State.setFlags_link, State.setLink_link,
      Option.mem_map] at h
    obtain ⟨w, -, rfl⟩ := h
    exact .inl rfl
  · next hn =>
    simp only [Link.stallDue, Option.mem_def.1 h, Bool.and_eq_true, Bool.not_eq_true',
      decide_eq_true_eq, bne_iff_ne, ne_eq] at hn
    by_contra hc
    simp only [not_or, Bool.not_eq_true, Nat.not_lt] at hc
    obtain ⟨he, ht, hl⟩ := hc
    exact hn ⟨⟨he, ht⟩, hl⟩

/-- A step that starts, or a timer that is not yet due (R144, R145). -/
theorem Patrol.due_cases (p : Patrol) : p.due = true ∧ p.phase = .pacing ∨
    p.due = false ∧ (p.phase = .pacing → ∀ t ∈ p.timer, t < p.interval.toNat) := by
  cases hd : p.due with
  | true =>
    refine .inl ⟨rfl, ?_⟩
    unfold Patrol.due at hd
    split at hd
    · assumption
    · cases hd
  | false =>
    refine .inr ⟨rfl, fun hp t ht => ?_⟩
    simp only [Patrol.due, hp, Option.mem_def.1 ht, decide_eq_false_iff_not, Nat.not_le] at hd
    exact hd

/-- The two timers' event, written out: the stall timer as given, the patrol checked. -/
theorem State.checkPatrol_effect {st : Option StallTimer} {f : Flags} {i : BitVec 16}
    {p : Option Nat} (hs : st.isSome = s.link.stall.isSome) (hp : p.isSome = s.patrol.timer.isSome)
    (hover : s.timersNotOverdue → ∀ u ∈ st,
      u.expired = true ∨ s.link.timeout = 0 ∨ u.elapsed < s.link.timeout.toNat) :
    s.Effect o ({ s with
      link := { s.link with stall := st }
      patrol := { s.patrol with interval := i, timer := p }
      host := { s.host with flags := f } } : State).checkPatrol := by
  unfold State.checkPatrol
  rcases Patrol.due_cases { s.patrol with interval := i, timer := p } with ⟨hd, hph⟩ | ⟨hd, hn⟩
  · rw [if_pos hd]
    exact (Active.timers st _ f hs ⟨i, .inr ⟨hph, rfl⟩⟩
      fun h => ⟨hover h, fun hc => by cases hc⟩).effect
  · rw [if_neg (by simp [hd])]
    exact (Active.timers st _ f hs ⟨i, .inl ⟨p, hp, rfl⟩⟩ fun h => ⟨hover h, hn⟩).effect

/-- A check of the stall timer changes the timer and LINK_STALL alone. -/
theorem State.checkStall_eq : s.checkStall = { s with
    link := { s.link with stall := s.checkStall.link.stall }
    host := { s.host with flags := s.checkStall.host.flags } } := by
  rcases State.checkStall_cases (s := s) with h | ⟨-, h⟩ <;> rw [h]

theorem State.checkStall_stall_isSome :
    s.checkStall.link.stall.isSome = s.link.stall.isSome := by
  rcases State.checkStall_cases (s := s) with h | ⟨-, h⟩ <;> rw [h]
  simp

theorem State.tick_effect : s.Effect o ((s.passTicks 1).checkStall.checkPatrol) := by
  have hso : ∀ u ∈ (s.passTicks 1).checkStall.link.stall,
      u.expired = true ∨ s.link.timeout = 0 ∨ u.elapsed < s.link.timeout.toNat :=
    fun u hu => State.checkStall_notOverdue (s := s.passTicks 1) u hu
  have hsome : (s.passTicks 1).checkStall.link.stall.isSome = s.link.stall.isSome := by
    rw [State.checkStall_stall_isSome, State.passTicks_eq]
    simp
  rw [State.checkStall_eq]
  exact State.checkPatrol_effect (i := s.patrol.interval) hsome (by simp) fun _ => hso

theorem State.stallExpiry_effect (n : Nat) :
    s.Effect o ((s.passTicks n).expireStall.checkPatrol) := by
  refine State.checkPatrol_effect (s := s) (i := s.patrol.interval) (by simp [State.passTicks_eq])
    (by simp) fun _ u hu => ?_
  obtain ⟨w, -, rfl⟩ := Option.mem_map.1 hu
  exact .inl rfl

theorem State.writePatrolInterval_effect (v : Data) : s.Effect o (s.writePatrolInterval v) :=
  State.checkPatrol_effect (s := s) (st := s.link.stall) (f := s.host.flags) (i := v) rfl rfl
    fun ⟨h, _⟩ => h

theorem State.patrolExpiry_effect (n : Nat) (hp : s.patrol.phase = .pacing) :
    s.Effect o ((s.setLink (s.link.passTicks n)).checkStall.setPatrol s.patrol.startStep).settle := by
  have hso : ∀ u ∈ (s.setLink (s.link.passTicks n)).checkStall.link.stall,
      u.expired = true ∨ s.link.timeout = 0 ∨ u.elapsed < s.link.timeout.toNat :=
    fun u hu => State.checkStall_notOverdue (s := s.setLink (s.link.passTicks n)) u hu
  have hsome : (s.setLink (s.link.passTicks n)).checkStall.link.stall.isSome =
      s.link.stall.isSome := by
    rw [State.checkStall_stall_isSome]
    simp [Link.passTicks]
  rw [State.checkStall_eq]
  exact (Active.timers _ s.patrol.startStep _ hsome ⟨s.patrol.interval, .inr ⟨hp, rfl⟩⟩
    fun _ => ⟨hso, fun hc => by cases hc⟩).effect

/-! ### Every register by its select (10.1) -/

theorem State.writeCommand_effect {f : State → State}
    (h : s.store.device = .running → s.Effect o (f s)) : s.Effect o (s.writeCommand f) := by
  unfold State.writeCommand
  split
  · exact State.answer_effect _ _
  · next hd => exact h hd

theorem State.writePatrolCtrl_effect (v : Data) : s.Effect o (s.writePatrolCtrl v) :=
  (Active.patrolCtrl v).effect

theorem State.writeRegister_effect (hs : s.host.stretch = none) (sel : BitVec 5) (v : Data) :
    s.Effect o (s.writeRegister sel v) := by
  unfold State.writeRegister
  split
  · exact State.writeIntStatus_effect v
  · exact State.writeIntEnable_effect v
  · exact State.writeCommand_effect fun hd => State.takeCommandWord_effect hd hs v
  · exact State.writeTimebase_effect v
  · exact State.writePatrolCtrl_effect v
  · exact State.writePatrolInterval_effect v
  · exact State.writeLinkCtrl_effect v
  · exact State.writeLinkTimeout_effect v
  · exact State.writeTablePointer_effect hs v
  · exact State.writeTableData_effect hs v
  · exact State.clearPortStatus_effect v
  · exact State.writeWinAddr_effect v
  · exact State.writeWinData_effect v
  · exact (Quiet.args v s.maint.argB s.maint.argC).effect
  · exact (Quiet.args s.maint.argA v s.maint.argC).effect
  · exact (Quiet.args s.maint.argA s.maint.argB v).effect
  · exact (Quiet.nothing).effect

end

end Sys2Proof.Machine

namespace Sys2Proof.Machine

/-! PROOFS. What each command of the table can do: the completions and the sample link by their own
conditions, the host's accesses by the bus, and so every command, every tick and every step. -/

section
variable {s t : State} {o : Option Instr}

theorem State.Filed.refl (s : State) : s.Filed s := .inl rfl

theorem State.fileRead_filed (r : ReadResult) (src : Source) (ch : Option Chan) :
    s.Filed (s.fileRead r src ch) := .inr ⟨r, src, ch, rfl⟩

/-! ### The sample link (chapter 4) -/

theorem State.acceptWord_effect (hl : s.linkOpen = true) (w : BitVec 29) :
    s.Effect o (s.acceptWord w).settle := by
  have hanswer : ∀ r, s.Effect o (s.pushSlot w (.done r)).settle := fun r =>
    (State.Active.answered w r s.host hl (.refl _)).effect
  unfold State.acceptWord
  split
  · exact (State.Active.answered w _ { s.host with flags := { s.host.flags with linkError := true } }
      hl ⟨rfl, rfl, rfl, rfl, fun h => h⟩).effect
  · split
    · unfold State.acceptLookup
      dsimp only
      split
      · exact hanswer _
      · exact hanswer _
      · next hc => exact (State.Active.bind w hl hc).effect
    · split
      · exact (State.Active.frame w hl).effect
      · exact hanswer _

theorem State.offered_eq_some {w : BitVec 35} (h : s.offered = some w) :
    ∃ sl rest, s.link.queue = sl :: rest ∧ sl.isDone = true := by
  unfold State.offered at h
  split at h
  · next sl rest hq =>
    refine ⟨sl, rest, hq, ?_⟩
    split at h
    · next r hr => simp [Slot.isDone, hr]
    · cases h
  · cases h

/-! ### The completions of the store (chapters 5, 7, 8, 9, 10) -/

theorem State.lookupCompletion_effect {r : ReadResult} {i : Interest} {ch : Chan} {n : Snapshot}
    (ha : s.store.access = some (.read .lookup r i))
    (hr : readingSlot s.link.queue = some (ch, n)) (he : s.engine.evaluating = true) :
    s.Effect (some .lookupReadCompletion)
      (((s.setAccess none).fileRead r .lookup (some ch)).lookupRead r ch n).settleLookup := by
  have hfe : ((s.setAccess none).fileRead r .lookup (some ch)).engine = s.engine := by simp
  have hlast : ∀ p y, s.Effect (some .lookupReadCompletion)
      (((s.setAccess none).fileRead r .lookup (some ch)).completeLookup ch n p y).settleLookup := by
    intro p y
    have hact := State.Active.lastRead r i p ch n y ha he hr
    unfold State.settleLookup
    split
    · next q e hq => exact .inr ⟨_, hact, .lookup q e hq⟩
    · exact hact.effect
  unfold State.lookupRead
  rw [hfe]
  cases hen : s.engine with
  | idle => simp [Engine.evaluating, hen] at he
  | draining => simp [Engine.evaluating, hen] at he
  | secondRead p e => exact hlast _ _
  | firstRead p =>
    cases hm : n.bank.mode with
    | nearest => exact hlast _ _
    | linear => exact .inr ⟨_, .firstRead r i p ch n ha hen hr, .lookup _ _ rfl⟩

/-- A word counted: the job ends, or asks for its next word (R128, R129, R131). -/
theorem State.afterWord_effect {a : Access} {c : Instr} {f : State} {j j' : RunningJob}
    (ha : s.store.access = some a) (hc : c ∈ a.completions)
    (hk : (∃ k, a = .write .fill k .wanted) ∨ ∃ r, a = .read .verify r .wanted)
    (hf : (s.setAccess none).Filed f) (hj : s.maint.run = some j) (hj' : j'.job = j.job)
    (hw : j'.wordsDone = j.wordsDone + 1) : s.Effect (some c) (f.afterWord j') := by
  unfold State.afterWord
  split
  · exact (State.Active.wordEnd a c f j j' _ ha hc hk hf hj hj').effect
  · split
    · exact (State.Active.wordEnd a c f j j' _ ha hc hk hf hj hj').effect
    · next hn =>
      rw [hj'] at hn
      exact .inr ⟨_, .wordNext a c f j j' ha hc hk hf hj hj' hw hn, .maint j' rfl⟩

theorem State.prefetchCompletion_effect {r : ReadResult} {i : Interest}
    (ha : s.store.access = some (.read .prefetch r i)) :
    s.Effect (some .prefetchCompletion)
      (if i = .dropped then s.setAccess none else (s.setAccess none).prefetchDone r i).settle := by
  split
  · exact (State.Active.freed _ _ ha (by simp [Access.completions]) (by simp [Access.claimant])
      fun _ h => by cases h).effect
  · exact (State.Active.prefetched r i ha).effect

theorem State.drainedCompletion_effect {r : ReadResult} {i : Interest} {ch : Chan} {b : Bank}
    {f : Bool} (ha : s.store.access = some (.read .lookup r i))
    (he : s.engine = .draining ch b f) :
    s.Effect (some .drainedReadCompletion)
      (if i = .dropped then (s.setAccess none).setEngine .idle
        else ((s.setAccess none).setEngine .idle).drainStale r ch f).takeSlot.settle := by
  refine (State.Active.drained r i ch b f _ ha he ?_).effect
  split
  · exact .inl rfl
  · exact .inr rfl

/-- A completion whose operation is no longer awaited frees the store (R21). -/
theorem State.freed_effect {a : Access} {c : Instr} (ha : s.store.access = some a)
    (hc : c ∈ a.completions) (hl : a.claimant = .maint)
    (hp : ∀ r, a = .read .patrol r .wanted → s.patrol.step = none) :
    s.Effect (some c) (s.setAccess none).settle :=
  (State.Active.freed a c ha hc (by simp [hl]) hp).effect

theorem State.nothing_effect : s.Effect o s := (State.Quiet.nothing).effect

theorem State.retireCompletion_effect {r : ReadResult} {op : RetireOp}
    (ha : s.store.access = some (.read .retire r .wanted)) (hop : s.sparing.retire = some op) :
    s.Effect (some .retireReadCompletion)
      (((s.setAccess none).fileRead r op.source.source none).retireAllocate op r).settle := by
  unfold State.retireAllocate
  split
  · next k hk =>
    exact (State.Active.retireAlloc r _ op ⟨r.outcome, r.data, r.outcome.faulty, k⟩ ha hop
      (State.fileRead_filed _ _ _) (by simpa using hk)).effect
  · exact (State.Active.retireNoSpare r _ op ha hop (State.fileRead_filed _ _ _)).effect

/-! ### Every command -/

/-- An event of the part acts on the state with the owed grant made (R11). -/
theorem State.event_effect {f : State → State}
    (h : s.grantOwed.Effect o (f s.grantOwed)) :
    ∃ t, s.event f = .next t ∧ s.grantOwed.Effect o t := ⟨_, rfl, h⟩

/-- A host access on a free bus; on a held one nothing takes place (R157). -/
theorem State.whenBusFree_effect {f : State → State}
    (h : ∀ u : State, u.host.stretch = none → u.Effect o (f u)) :
    ∃ t, s.whenBusFree f = .next t ∧ s.grantOwed.Effect o t := by
  refine State.event_effect ?_
  split
  · exact State.nothing_effect
  · next hs => exact h _ (by simpa using hs)

theorem State.command_effect {f : State → State}
    (h : ∀ u : State, u.host.stretch = none → u.store.device = .running → u.Effect o (f u)) :
    ∃ t, s.command f = .next t ∧ s.grantOwed.Effect o t :=
  State.whenBusFree_effect fun u hs => State.writeCommand_effect (h u hs)

theorem execFillWordCompletion_effect (s : State) : ∃ t, execFillWordCompletion s = .next t ∧
    s.grantOwed.Effect (some .fillWordCompletion) t := by
  unfold execFillWordCompletion
  refine State.event_effect ?_
  split
  · next k j ha hj =>
    exact State.afterWord_effect ha (by simp [Access.completions]) (.inl ⟨k, rfl⟩) (.refl _) hj
      rfl rfl
  · next ha _ =>
    exact State.freed_effect ha (by simp [Access.completions]) rfl fun _ h => by cases h
  · exact State.nothing_effect

theorem execVerifyReadCompletion_effect (s : State) : ∃ t, execVerifyReadCompletion s = .next t ∧
    s.grantOwed.Effect (some .verifyReadCompletion) t := by
  unfold execVerifyReadCompletion
  refine State.event_effect ?_
  split
  · next r j ha hj =>
    exact State.afterWord_effect ha (by simp [Access.completions]) (.inr ⟨r, rfl⟩)
      (State.fileRead_filed _ _ _) hj rfl rfl
  · next ha _ =>
    exact State.freed_effect ha (by simp [Access.completions]) rfl fun _ h => by cases h
  · exact State.nothing_effect

theorem execRetireReadCompletion_effect (s : State) : ∃ t, execRetireReadCompletion s = .next t ∧
    s.grantOwed.Effect (some .retireReadCompletion) t := by
  unfold execRetireReadCompletion
  refine State.event_effect ?_
  split
  · next r op ha hop => exact State.retireCompletion_effect ha hop
  · next ha _ =>
    exact State.freed_effect ha (by simp [Access.completions]) rfl fun _ h => by cases h
  · exact State.nothing_effect

theorem execSpareWriteCompletion_effect (s : State) : ∃ t, execSpareWriteCompletion s = .next t ∧
    s.grantOwed.Effect (some .spareWriteCompletion) t := by
  unfold execSpareWriteCompletion
  refine State.event_effect ?_
  split
  · next k op ha hop =>
    split
    · next c hc => exact (State.Active.commit k op c ha hop hc).effect
    · exact State.freed_effect ha (by simp [Access.completions]) rfl fun _ h => by cases h
  · next ha _ =>
    exact State.freed_effect ha (by simp [Access.completions]) rfl fun _ h => by cases h
  · exact State.nothing_effect

theorem execPatrolReadCompletion_effect (s : State) : ∃ t, execPatrolReadCompletion s = .next t ∧
    s.grantOwed.Effect (some .patrolReadCompletion) t := by
  unfold execPatrolReadCompletion
  refine State.event_effect ?_
  split
  · next r st ha hst =>
    exact (State.Active.patrolRead r _ st _ ha hst (State.fileRead_filed _ _ _)).effect
  · next ha hno =>
    refine State.freed_effect ha (by simp [Access.completions]) rfl fun r h => ?_
    cases h
    exact Option.eq_none_iff_forall_ne_some.2 fun st hst => hno st hst rfl
  · exact State.nothing_effect

theorem execWriteBackCompletion_effect (s : State) : ∃ t, execWriteBackCompletion s = .next t ∧
    s.grantOwed.Effect (some .writeBackCompletion) t := by
  unfold execWriteBackCompletion
  refine State.event_effect ?_
  split
  · next k st ha hst => exact (State.Active.writeBack k st ha hst).effect
  · next ha _ =>
    exact State.freed_effect ha (by simp [Access.completions]) rfl fun _ h => by cases h
  · exact State.nothing_effect

theorem execDeviceReset_effect (cause : ResetCause) (s : State) : ∃ t, execDeviceReset cause s = .next t ∧
    s.grantOwed.Effect (some (.deviceReset cause)) t := by
  unfold execDeviceReset
  refine State.event_effect ?_
  cases cause
  · exact State.Quiet.pinReset.effect
  · exact State.Quiet.powerOn.effect

theorem execResetRelease_effect (s : State) : ∃ t, execResetRelease s = .next t ∧
    s.grantOwed.Effect (some .resetRelease) t := by
  unfold execResetRelease
  refine State.event_effect ?_
  split
  · next h => exact (State.Quiet.release h).effect
  · exact State.nothing_effect

theorem execStartUpFillWriteCompletion_effect (s : State) :
    ∃ t, execStartUpFillWriteCompletion s = .next t ∧
      s.grantOwed.Effect (some .startUpFillWriteCompletion) t := by
  unfold execStartUpFillWriteCompletion
  refine State.event_effect ?_
  split
  · next k hk =>
    dsimp only
    split
    · next hlt => exact (State.Quiet.fillNext k hk hlt).effect
    · next hlt => exact (State.Quiet.fillLast k hk hlt).effect
  · exact State.nothing_effect

theorem execRequestAcceptance_effect (w : BitVec 29) (s : State) :
    ∃ t, execRequestAcceptance w s = .next t ∧
      s.grantOwed.Effect (some (.requestAcceptance w)) t := by
  unfold execRequestAcceptance
  refine State.event_effect ?_
  split
  · next hl => exact State.acceptWord_effect hl w
  · exact State.nothing_effect

theorem execDelivery_effect (s : State) : ∃ t, execDelivery s = .next t ∧
    s.grantOwed.Effect (some .delivery) t := by
  unfold execDelivery
  refine State.event_effect ?_
  split
  · next w hw =>
    obtain ⟨sl, rest, hq, hd⟩ := State.offered_eq_some hw
    rw [hq]
    exact (State.Quiet.delivery sl rest w hq hd).effect
  · exact State.nothing_effect

theorem execStallTimerExpiry_effect (s : State) : ∃ t, execStallTimerExpiry s = .next t ∧
    s.grantOwed.Effect (some .stallTimerExpiry) t := by
  unfold execStallTimerExpiry
  refine State.event_effect ?_
  split
  · exact State.stallExpiry_effect _
  · exact State.nothing_effect

theorem execLookupReadCompletion_effect (s : State) : ∃ t, execLookupReadCompletion s = .next t ∧
    s.grantOwed.Effect (some .lookupReadCompletion) t := by
  unfold execLookupReadCompletion
  refine State.event_effect ?_
  split
  · next r i ch n ha hr =>
    split
    · next he => exact State.lookupCompletion_effect ha hr he
    · exact State.nothing_effect
  · exact State.nothing_effect

theorem execDrainedReadCompletion_effect (s : State) : ∃ t, execDrainedReadCompletion s = .next t ∧
    s.grantOwed.Effect (some .drainedReadCompletion) t := by
  unfold execDrainedReadCompletion
  refine State.event_effect ?_
  split
  · next r i ch b f ha he => exact State.drainedCompletion_effect ha he
  · exact State.nothing_effect

theorem execPrefetchCompletion_effect (s : State) : ∃ t, execPrefetchCompletion s = .next t ∧
    s.grantOwed.Effect (some .prefetchCompletion) t := by
  unfold execPrefetchCompletion
  refine State.event_effect ?_
  split
  · next r i ha => exact State.prefetchCompletion_effect ha
  · exact State.nothing_effect

theorem execPostedWriteCompletion_effect (s : State) : ∃ t, execPostedWriteCompletion s = .next t ∧
    s.grantOwed.Effect (some .postedWriteCompletion) t := by
  unfold execPostedWriteCompletion
  refine State.event_effect ?_
  split
  · next k i ha =>
    split
    · next v hs => exact (State.Active.postNext k i v ha hs).effect
    · next hs => exact (State.Active.postDone k i ha hs).effect
  · exact State.nothing_effect

theorem execPatrolIntervalExpiry_effect (s : State) : ∃ t, execPatrolIntervalExpiry s = .next t ∧
    s.grantOwed.Effect (some .patrolIntervalExpiry) t := by
  unfold execPatrolIntervalExpiry
  refine State.event_effect ?_
  split
  · next n hp _ => exact State.patrolExpiry_effect _ hp
  · exact State.nothing_effect

/-- Every command answers a next state, which is one of these effects on the state with the owed grant
made. -/
theorem exec_effect (c : Instr) (s : State) :
    ∃ t, exec c s = .next t ∧ s.grantOwed.Effect (some c) t := by
  cases c with
  | deviceReset cause => exact execDeviceReset_effect cause s
  | resetRelease => exact execResetRelease_effect s
  | startUpFillWriteCompletion => exact execStartUpFillWriteCompletion_effect s
  | storedBitDisturbance p d m => exact ⟨_, rfl, (State.Quiet.disturb p d m).effect⟩
  | requestAcceptance w => exact execRequestAcceptance_effect w s
  | delivery => exact execDelivery_effect s
  | stallTimerExpiry => exact execStallTimerExpiry_effect s
  | linkRstAssert => exact ⟨_, rfl, State.Active.linkReset.effect⟩
  | linkRstRelease => exact ⟨_, rfl, State.Quiet.linkRstRelease.effect⟩
  | lookupReadCompletion => exact execLookupReadCompletion_effect s
  | drainedReadCompletion => exact execDrainedReadCompletion_effect s
  | prefetchCompletion => exact execPrefetchCompletion_effect s
  | postedWriteCompletion => exact execPostedWriteCompletion_effect s
  | fillWordCompletion => exact execFillWordCompletion_effect s
  | verifyReadCompletion => exact execVerifyReadCompletion_effect s
  | retireReadCompletion => exact execRetireReadCompletion_effect s
  | spareWriteCompletion => exact execSpareWriteCompletion_effect s
  | patrolIntervalExpiry => exact execPatrolIntervalExpiry_effect s
  | patrolReadCompletion => exact execPatrolReadCompletion_effect s
  | writeBackCompletion => exact execWriteBackCompletion_effect s
  | tablePointerWrite v =>
    exact State.whenBusFree_effect fun _ hs => State.writeTablePointer_effect hs v
  | tableDataRead => exact State.whenBusFree_effect fun _ hs => State.readTableData_effect hs
  | tableDataWrite v => exact State.whenBusFree_effect fun _ hs => State.writeTableData_effect hs v
  | tablePortStatusClear v =>
    exact State.whenBusFree_effect (f := (·.clearPortStatus v)) fun _ _ =>
      State.clearPortStatus_effect v
  | intStatusWrite v => exact State.whenBusFree_effect fun _ _ => State.writeIntStatus_effect v
  | intEnableWrite v => exact State.whenBusFree_effect fun _ _ => State.writeIntEnable_effect v
  | winAddrWrite v => exact State.whenBusFree_effect fun _ _ => State.writeWinAddr_effect v
  | winDataRead => exact State.whenBusFree_effect fun _ _ => State.readWinData_effect
  | winDataWrite v => exact State.whenBusFree_effect fun _ _ => State.writeWinData_effect v
  | timebaseWrite v => exact State.whenBusFree_effect fun _ _ => State.writeTimebase_effect v
  | patrolCtrlWrite v => exact State.whenBusFree_effect fun _ _ => State.writePatrolCtrl_effect v
  | patrolIntervalWrite v =>
    exact State.whenBusFree_effect fun _ _ => State.writePatrolInterval_effect v
  | linkCtrlWrite v => exact State.whenBusFree_effect fun _ _ => State.writeLinkCtrl_effect v
  | linkTimeoutWrite v => exact State.whenBusFree_effect fun _ _ => State.writeLinkTimeout_effect v
  | registerWrite sel v =>
    exact State.whenBusFree_effect fun _ hs => State.writeRegister_effect hs sel v
  | enable low => exact State.command_effect fun _ hs hd => State.runCommand_effect hd hs low .enable
  | disable low => exact State.command_effect fun _ hs hd => State.runCommand_effect hd hs low .disable
  | resume low => exact State.command_effect fun _ hs hd => State.runCommand_effect hd hs low .resume
  | arm low => exact State.command_effect fun _ hs hd => State.runCommand_effect hd hs low .arm
  | disarm low => exact State.command_effect fun _ hs hd => State.runCommand_effect hd hs low .disarm
  | fill low => exact State.command_effect fun _ hs hd => State.runCommand_effect hd hs low .fill
  | verify low => exact State.command_effect fun _ hs hd => State.runCommand_effect hd hs low .verify
  | retire low => exact State.command_effect fun _ hs hd => State.runCommand_effect hd hs low .retire
  | abortJobs low =>
    exact State.command_effect fun _ hs hd => State.runCommand_effect hd hs low .abortJobs
  | popError low => exact State.command_effect fun _ hs hd => State.runCommand_effect hd hs low .popError
  | popCompletion low =>
    exact State.command_effect fun _ hs hd => State.runCommand_effect hd hs low .popCompletion
  | clearLoss low =>
    exact State.command_effect fun _ hs hd => State.runCommand_effect hd hs low .clearLoss
  | softReset low =>
    exact State.command_effect fun _ hs hd => State.runCommand_effect hd hs low .softReset
  | unknownCommand w => exact State.command_effect fun _ hs hd => State.takeCommandWord_effect hd hs w

theorem effect_of_exec {c : Instr} (h : exec c s = .next t) : s.grantOwed.Effect (some c) t := by
  obtain ⟨u, hu, he⟩ := exec_effect c s
  rw [hu] at h
  cases h
  exact he

/-! ### Every step -/

/-- The state with the front command taken from its queue. -/
def State.popped (s : State) : State := { s with pending := s.pending.tail }

/-- A step is one effect of the front command, or of a tick, on the state with that command taken and
the owed grant made. -/
theorem effect_of_step (h : step s = .next t) :
    s.popped.grantOwed.Effect s.pending.head? t := by
  unfold step at h
  split at h
  · next c rest hp =>
    have := effect_of_exec h
    rwa [State.popped, hp]
  · next hp =>
    cases h
    have hs : s.popped = s := by rw [State.popped, hp, List.tail_nil, ← hp]
    rw [hs]
    exact State.tick_effect

/-! ### Invariants -/

theorem State.Ends.cases {v : State} (h : v.Ends t) : t = v ∨ t = v.settle := by
  cases h with
  | settle => exact .inr rfl
  | lookup => rcases v.settleTogether_cases .lookup with ⟨-, -, h⟩ | ⟨-, h⟩ <;> simp [h]
  | maint => rcases v.settleTogether_cases .maint with ⟨-, -, h⟩ | ⟨-, h⟩ <;> simp [h]

/-- A property that a grant keeps, an owed grant keeps. -/
theorem State.grantOwed_keeps {P : State → Prop} (hgrant : ∀ s t : State,
      s.store.device = .running → s.store.access = none → s.Grant t → P s → P t)
    (hs : P s) : P s.grantOwed := by
  unfold State.grantOwed
  split
  · exact State.settle_keeps (fun t hd ha hg => hgrant s t hd ha hg hs) hs
  · exact hs

/-- What each effect and each grant keeps, an effect keeps. -/
theorem State.Effect.keeps {P : State → Prop}
    (hgrant : ∀ s t : State, s.store.device = .running → s.store.access = none → s.Grant t →
      P s → P t)
    (hquiet : ∀ o (s t : State), s.Quiet o t → P s → P t)
    (hactive : ∀ o (s v : State), s.Active o v → P s → P v)
    (h : s.Effect o t) (hs : P s) : P t := by
  rcases h with hq | ⟨v, hv, he⟩
  · exact hquiet o s t hq hs
  · have hPv := hactive o s v hv hs
    rcases he.cases with rfl | rfl
    · exact hPv
    · exact State.settle_keeps (fun t hd ha hg => hgrant v t hd ha hg hPv) hPv

/-- A property of the state apart from its queue of commands, kept by each grant and each effect, is kept
by every step. -/
theorem step_keeps {P : State → Prop} (hpending : ∀ s : State, P s → P s.popped)
    (hgrant : ∀ s t : State, s.store.device = .running → s.store.access = none → s.Grant t →
      P s → P t)
    (hquiet : ∀ o (s t : State), s.Quiet o t → P s → P t)
    (hactive : ∀ o (s v : State), s.Active o v → P s → P v)
    (h : step s = .next t) (hs : P s) : P t :=
  (effect_of_step h).keeps hgrant hquiet hactive
    (State.grantOwed_keeps hgrant (hpending s hs))

end

end Sys2Proof.Machine

namespace Sys2Proof.Machine

/-! PROOFS. What the operations of one event leave as it was: the fields of the state apart from those
that the operation is about, for the operations that Laws/ does not speak of. -/

section
variable {s f : State}

/-! ### The sample link -/

@[simp] theorem State.swapCommit_frame (n : BitVec 16) :
    (s.swapCommit n).store = s.store ∧ (s.swapCommit n).link = s.link ∧
    (s.swapCommit n).engine = s.engine ∧ (s.swapCommit n).errors = s.errors ∧
    (s.swapCommit n).sparing = s.sparing ∧ (s.swapCommit n).maint = s.maint ∧
    (s.swapCommit n).patrol = s.patrol ∧ (s.swapCommit n).outputs = s.outputs ∧
    (s.swapCommit n).freeIndex = s.freeIndex ∧ (s.swapCommit n).pending = s.pending ∧
    (s.swapCommit n).channels = s.channels.map (·.commit n) := by
  unfold State.swapCommit
  dsimp only
  split <;> simp [State.raiseSwapDone]

theorem State.swapCommit_host (n : BitVec 16) :
    ∃ g, (s.swapCommit n).host = { s.host with flags := g } := by
  unfold State.swapCommit
  dsimp only
  split
  · exact ⟨_, rfl⟩
  · exact ⟨s.host.flags, rfl⟩

@[simp] theorem State.pushSlot_queue (w : BitVec 29) (p : SlotPhase) :
    (s.pushSlot w p).link.queue = s.link.queue ++ [requestSlot w p] ∧
    (s.pushSlot w p).link.timeout = s.link.timeout ∧
    (s.pushSlot w p).link.linkRst = s.link.linkRst ∧
    (s.pushSlot w p).link.frame = s.link.frame := by
  simp [State.pushSlot, requestSlot, requestKind, requestChannel, requestTag]

@[simp] theorem State.acceptFrame_frame (w : BitVec 29) :
    (s.acceptFrame w).store = s.store ∧ (s.acceptFrame w).engine = s.engine ∧
    (s.acceptFrame w).errors = s.errors ∧ (s.acceptFrame w).sparing = s.sparing ∧
    (s.acceptFrame w).maint = s.maint ∧ (s.acceptFrame w).patrol = s.patrol ∧
    (s.acceptFrame w).outputs = s.outputs ∧ (s.acceptFrame w).freeIndex = s.freeIndex ∧
    (s.acceptFrame w).pending = s.pending ∧
    (s.acceptFrame w).channels = s.channels.map (·.commit (s.link.frame + 1)) ∧
    (s.acceptFrame w).link.queue =
      s.link.queue ++ [requestSlot w (acceptanceResponse .frameAck (s.link.frame + 1))] ∧
    (s.acceptFrame w).link.timeout = s.link.timeout ∧
    (s.acceptFrame w).link.linkRst = s.link.linkRst := by
  simp [State.acceptFrame]

theorem State.acceptFrame_host (w : BitVec 29) :
    ∃ g, (s.acceptFrame w).host = { s.host with flags := g } := by
  obtain ⟨g, hg⟩ := State.swapCommit_host (s := s.setLink { s.link with frame := s.link.frame + 1 })
    (s.link.frame + 1)
  exact ⟨g, by simpa [State.acceptFrame] using hg⟩

@[simp] theorem State.takeSlot_timeout : s.takeSlot.link.timeout = s.link.timeout := by
  rcases s.takeSlot_cases with h | ⟨_, _, _, _, _, -, -, -, -, h⟩ <;> rw [h]

@[simp] theorem State.checkStall_frame :
    s.checkStall.store = s.store ∧ s.checkStall.channels = s.channels ∧
    s.checkStall.engine = s.engine ∧ s.checkStall.errors = s.errors ∧
    s.checkStall.sparing = s.sparing ∧ s.checkStall.maint = s.maint ∧
    s.checkStall.patrol = s.patrol ∧ s.checkStall.outputs = s.outputs ∧
    s.checkStall.freeIndex = s.freeIndex ∧ s.checkStall.pending = s.pending ∧
    s.checkStall.link.queue = s.link.queue ∧ s.checkStall.link.timeout = s.link.timeout ∧
    s.checkStall.link.linkRst = s.link.linkRst := by
  rcases State.checkStall_cases (s := s) with h | ⟨-, h⟩ <;> rw [h] <;> simp

theorem State.checkStall_host : ∃ g, s.checkStall.host = { s.host with flags := g } := by
  rcases State.checkStall_cases (s := s) with h | ⟨-, h⟩ <;> rw [h]
  · exact ⟨s.host.flags, rfl⟩
  · exact ⟨_, rfl⟩

/-! ### One grant -/

/-- What a grant leaves as it was. -/
theorem State.Grant.frame {t : State} (h : s.Grant t) : s.GrantFrame t := by
  cases h <;>
    simp [State.GrantFrame, State.refusedWrite, State.countRefusal, State.takenWrite,
      State.maintWrite]

/-! ### Link reset -/

theorem State.reportDiscard_cases :
    s.reportDiscard = s ∨ ∃ ch, s.reportDiscard = s.reportFaulty ch := by
  unfold State.reportDiscard
  split
  · next ch n _ =>
    split
    · exact .inr ⟨ch, rfl⟩
    · exact .inl rfl
  · exact .inl rfl

@[simp] theorem State.discardSlots_frame :
    s.discardSlots.store = { s.store with access := s.accessAfterLinkReset } ∧
    s.discardSlots.engine = s.dropEngine ∧ s.discardSlots.errors = s.errors ∧
    s.discardSlots.link = { s.link with queue := [], stall := none } ∧
    s.discardSlots.sparing = s.sparing ∧ s.discardSlots.maint = s.maint ∧
    s.discardSlots.patrol = s.patrol ∧ s.discardSlots.outputs = s.outputs ∧
    s.discardSlots.freeIndex = s.freeIndex ∧ s.discardSlots.pending = s.pending := by
  rcases State.reportDiscard_cases (s := s) with h | ⟨ch, h⟩ <;>
    simp [State.discardSlots, h]

theorem State.discardSlots_channels : s.discardSlots.channels = s.channels ∨
    ∃ ch : Chan, s.discardSlots.channels = s.channels.set ch s.channels[ch].countFaulty := by
  rcases State.reportDiscard_cases (s := s) with h | ⟨ch, h⟩
  · exact .inl (by simp [State.discardSlots, h])
  · exact .inr ⟨ch, by simp [State.discardSlots, h]⟩

theorem State.discardSlots_host : ∃ g, s.discardSlots.host = { s.host with flags := g } := by
  rcases State.reportDiscard_cases (s := s) with h | ⟨ch, h⟩
  · exact ⟨s.host.flags, by simp [State.discardSlots, h]⟩
  · obtain ⟨g, hg⟩ := s.reportFaulty_host ch
    exact ⟨g, by simpa [State.discardSlots, h] using hg⟩

/-! ### Completed reads -/

/-- A completed read that has filed its detection changes the error record queue and the flags alone. -/
theorem State.Filed.frame (h : s.Filed f) :
    f.store = s.store ∧ f.channels = s.channels ∧ f.link = s.link ∧ f.engine = s.engine ∧
    f.sparing = s.sparing ∧ f.maint = s.maint ∧ f.patrol = s.patrol ∧ f.outputs = s.outputs ∧
    f.freeIndex = s.freeIndex ∧ f.pending = s.pending := by
  rcases h with rfl | ⟨r, src, ch, rfl⟩ <;> simp

theorem State.Filed.host (h : s.Filed f) : ∃ g, f.host = { s.host with flags := g } := by
  rcases h with rfl | ⟨r, src, ch, rfl⟩
  · exact ⟨_, rfl⟩
  · exact s.fileRead_host r src ch

/-- The queue after it: as it was, or with one filing. -/
theorem State.Filed.errors (h : s.Filed f) :
    f.errors = s.errors ∨ ∃ d : Detection, f.errors = (s.errors.file d s.link.frame).1 := by
  rcases h with rfl | ⟨r, src, ch, rfl⟩
  · exact .inl rfl
  · exact s.fileRead_errors r src ch

/-- The drained read files, and may report to its channel (R86). -/
theorem State.drainStale_cases (r : ReadResult) (ch : Chan) (b : Bool) :
    s.Filed (s.drainStale r ch b) ∨
      ∃ f, s.Filed f ∧ s.drainStale r ch b = f.reportFaulty ch := by
  unfold State.drainStale
  dsimp only
  split
  · exact .inr ⟨_, State.fileRead_filed _ _ _, rfl⟩
  · exact .inl (State.fileRead_filed _ _ _)

@[simp] theorem State.drainStale_frame (r : ReadResult) (ch : Chan) (b : Bool) :
    (s.drainStale r ch b).store = s.store ∧ (s.drainStale r ch b).link = s.link ∧
    (s.drainStale r ch b).engine = s.engine ∧ (s.drainStale r ch b).sparing = s.sparing ∧
    (s.drainStale r ch b).maint = s.maint ∧ (s.drainStale r ch b).patrol = s.patrol ∧
    (s.drainStale r ch b).outputs = s.outputs ∧
    (s.drainStale r ch b).freeIndex = s.freeIndex ∧
    (s.drainStale r ch b).pending = s.pending := by
  unfold State.drainStale
  dsimp only
  split <;> simp

theorem State.drainStale_host (r : ReadResult) (ch : Chan) (b : Bool) :
    ∃ g, (s.drainStale r ch b).host = { s.host with flags := g } := by
  rcases State.drainStale_cases (s := s) r ch b with h | ⟨f, h, he⟩
  · exact h.host
  · obtain ⟨g, hg⟩ := h.host
    obtain ⟨g', hg'⟩ := f.reportFaulty_host ch
    exact ⟨g', by rw [he, hg', hg]⟩

@[simp] theorem State.prefetchDone_frame (r : ReadResult) (i : Interest) :
    (s.prefetchDone r i).store = s.store ∧ (s.prefetchDone r i).channels = s.channels ∧
    (s.prefetchDone r i).link = s.link ∧ (s.prefetchDone r i).engine = s.engine ∧
    (s.prefetchDone r i).sparing = s.sparing ∧ (s.prefetchDone r i).maint = s.maint ∧
    (s.prefetchDone r i).patrol = s.patrol ∧
    (s.prefetchDone r i).freeIndex = s.freeIndex ∧
    (s.prefetchDone r i).pending = s.pending ∧
    (s.prefetchDone r i).errors = (s.fileRead r .host none).errors := by
  rw [State.prefetchDone_cases]
  dsimp only
  split
  · split <;> simp [State.endTableRead_eq]
  · simp

theorem State.prefetchDone_host (r : ReadResult) (i : Interest) :
    (s.prefetchDone r i).host.posted = s.host.posted ∧
    (s.prefetchDone r i).host.timebase = s.host.timebase ∧
    (s.prefetchDone r i).host.window = s.host.window ∧
    (s.prefetchDone r i).host.index = s.host.index ∧
    ((s.prefetchDone r i).host.stretch = some .read →
      (s.prefetchDone r i).host.holder = s.host.holder ∧ s.host.stretch = some .read) ∧
    ∀ v, (s.prefetchDone r i).host.stretch = some (.write v) →
      s.host.stretch = some (.write v) := by
  obtain ⟨g, hg⟩ := s.fileRead_host r .host none
  rw [State.prefetchDone_cases]
  dsimp only
  rw [hg]
  split
  · split
    · simp [State.endTableRead_eq]
    · next h => simpa using fun h' => absurd h' h
  · simp

theorem State.completeLookup_host (ch : Chan) (n : Snapshot) (p : Progress) (y : Int) :
    ∃ g, (s.completeLookup ch n p y).host = { s.host with flags := g } := by
  unfold State.completeLookup State.report
  simp only [State.takeSlot_frame, State.setLink_host, State.setEngine_host]
  split
  · exact s.reportFaulty_host ch
  · exact ⟨s.host.flags, rfl⟩

/-! ### The table port -/

@[simp] theorem State.discardPrefetch_reset :
    s.discardPrefetch.resetAsserted = s.store.resetAsserted := by
  unfold State.discardPrefetch
  split
  · rfl
  · split <;> rfl

/-! ### Maintenance -/

@[simp] theorem State.mapCommit_frame (a : Addr) (c : RetireCopy) :
    (s.mapCommit a c).store = s.store ∧ (s.mapCommit a c).channels = s.channels ∧
    (s.mapCommit a c).link = s.link ∧ (s.mapCommit a c).engine = s.engine ∧
    (s.mapCommit a c).errors = s.errors ∧ (s.mapCommit a c).maint = s.maint ∧
    (s.mapCommit a c).patrol = s.patrol ∧ (s.mapCommit a c).outputs = s.outputs ∧
    (s.mapCommit a c).freeIndex = s.freeIndex ∧ (s.mapCommit a c).pending = s.pending ∧
    (s.mapCommit a c).sparing = s.sparing.commit a c := by
  unfold State.mapCommit
  dsimp only
  split <;> simp [State.raiseSparesExhausted]

theorem State.mapCommit_host (a : Addr) (c : RetireCopy) :
    ∃ g, (s.mapCommit a c).host = { s.host with flags := g } := by
  unfold State.mapCommit
  dsimp only
  split
  · exact ⟨_, rfl⟩
  · exact ⟨s.host.flags, rfl⟩

@[simp] theorem State.retireDone_frame (op : RetireOp) (c : RetireCopy) :
    (s.retireDone op c).store = { s.store with mark := none } ∧
    (s.retireDone op c).channels = s.channels ∧ (s.retireDone op c).link = s.link ∧
    (s.retireDone op c).engine = s.engine ∧ (s.retireDone op c).errors = s.errors ∧
    (s.retireDone op c).host = s.host ∧ (s.retireDone op c).outputs = s.outputs ∧
    (s.retireDone op c).freeIndex = s.freeIndex ∧
    (s.retireDone op c).pending = s.pending := by
  unfold State.retireDone
  split <;> simp

@[simp] theorem State.retireNoSpare_frame (op : RetireOp) (r : ReadResult) :
    (s.retireNoSpare op r).store.access = s.store.access ∧
    (s.retireNoSpare op r).store.mem = s.store.mem ∧
    (s.retireNoSpare op r).store.device = s.store.device ∧
    (s.retireNoSpare op r).channels = s.channels ∧ (s.retireNoSpare op r).link = s.link ∧
    (s.retireNoSpare op r).engine = s.engine ∧ (s.retireNoSpare op r).errors = s.errors ∧
    (s.retireNoSpare op r).host =
      { s.host with flags := { s.host.flags with sparesExhausted := true } } ∧
    (s.retireNoSpare op r).outputs = s.outputs ∧
    (s.retireNoSpare op r).freeIndex = s.freeIndex ∧
    (s.retireNoSpare op r).pending = s.pending ∧
    (s.retireNoSpare op r).sparing.slots = s.sparing.slots ∧
    (s.retireNoSpare op r).sparing.map = s.sparing.map := by
  unfold State.retireNoSpare
  split <;> simp [State.raiseSparesExhausted]

@[simp] theorem State.patrolAct_frame (st : PatrolStep) (r : ReadResult)
    (n : Option (BitVec 8)) :
    (s.patrolAct st r n).store.access = s.store.access ∧
    (s.patrolAct st r n).store.mem = s.store.mem ∧
    (s.patrolAct st r n).store.device = s.store.device ∧
    (s.patrolAct st r n).channels = s.channels ∧ (s.patrolAct st r n).link = s.link ∧
    (s.patrolAct st r n).engine = s.engine ∧ (s.patrolAct st r n).errors = s.errors ∧
    (s.patrolAct st r n).host = s.host ∧ (s.patrolAct st r n).outputs = s.outputs ∧
    (s.patrolAct st r n).freeIndex = s.freeIndex ∧
    (s.patrolAct st r n).pending = s.pending ∧
    (s.patrolAct st r n).sparing.slots = s.sparing.slots ∧
    (s.patrolAct st r n).sparing.map = s.sparing.map := by
  unfold State.patrolAct
  dsimp only
  split
  · split <;> simp
  · simp

/-- Of the store a NO_SPARE and the act of a patrol step change the claimed-word mark at most (R16). -/
theorem State.patrolNoSpare_store (r : ReadResult) : (s.patrolNoSpare r).store = s.store ∨
    (s.patrolNoSpare r).store = { s.store with mark := none } := by
  unfold State.patrolNoSpare
  split
  · split
    · exact .inr (by simp)
    · exact .inl (by simp)
  · exact .inl (by simp)

theorem State.retireNoSpare_store (op : RetireOp) (r : ReadResult) :
    (s.retireNoSpare op r).store = s.store ∨
      (s.retireNoSpare op r).store = { s.store with mark := none } := by
  unfold State.retireNoSpare
  split
  · exact .inr (by simp [State.raiseSparesExhausted])
  · exact State.patrolNoSpare_store (s := s.raiseSparesExhausted) r

theorem State.patrolAct_store (st : PatrolStep) (r : ReadResult) (n : Option (BitVec 8)) :
    (s.patrolAct st r n).store = s.store ∨
      (s.patrolAct st r n).store = { s.store with mark := none } := by
  unfold State.patrolAct
  dsimp only
  split
  · split <;> exact .inl (by simp)
  · exact .inr (by simp)

/-- What the ENABLE just written can do: nothing, or the patrol goes on from OFF, PACING or YIELDING
(R144, R154). -/
theorem State.actOnEnable_cases :
    s.actOnEnable = s ∨ (s.store.device = .running ∧
      (s.patrol.phase = .off ∨
        (s.patrol.phase = .pacing ∨ s.patrol.phase = .yielding) ∧ s.patrol.enable = false) ∧
      s.actOnEnable = { s with patrol := s.patrol.resume s.maint.busy }) := by
  unfold State.actOnEnable
  split
  · exact .inl rfl
  · next hd hp => exact .inr ⟨hd, .inl hp, rfl⟩
  · next hd hp =>
    split
    · exact .inl rfl
    · next he => exact .inr ⟨hd, .inr ⟨.inl hp, by simpa using he⟩, rfl⟩
  · next hd hp =>
    split
    · exact .inl rfl
    · next he => exact .inr ⟨hd, .inr ⟨.inr hp, by simpa using he⟩, rfl⟩
  · exact .inl rfl

@[simp] theorem State.actOnEnable_frame :
    s.actOnEnable.store = s.store ∧ s.actOnEnable.channels = s.channels ∧
    s.actOnEnable.link = s.link ∧ s.actOnEnable.engine = s.engine ∧
    s.actOnEnable.errors = s.errors ∧ s.actOnEnable.sparing = s.sparing ∧
    s.actOnEnable.maint = s.maint ∧ s.actOnEnable.host = s.host ∧
    s.actOnEnable.outputs = s.outputs ∧ s.actOnEnable.freeIndex = s.freeIndex ∧
    s.actOnEnable.pending = s.pending := by
  rcases State.actOnEnable_cases (s := s) with h | ⟨-, -, h⟩ <;> rw [h] <;> simp

theorem State.abortRunning_cases :
    s.maint.run = none ∧ s.abortRunning = (none, []) ∨
    ∃ j, s.maint.run = some j ∧
      (j.job.kind = .retire ∧ s.abortRunning = (some j, []) ∨
        j.job.kind ≠ .retire ∧
          (s.maintGranted = true ∧ s.abortRunning = (some { j with stopping := true }, []) ∨
            s.maintGranted = false ∧
              s.abortRunning = (none, [j.completion .aborted none]))) := by
  unfold State.abortRunning
  split
  · next h => exact .inl ⟨h, rfl⟩
  · next j h =>
    refine .inr ⟨j, h, ?_⟩
    split
    · next hk => exact .inl ⟨hk, rfl⟩
    · next hk =>
      refine .inr ⟨hk, ?_⟩
      split
      · next hg => exact .inl ⟨hg, rfl⟩
      · next hg => exact .inr ⟨by simpa using hg, rfl⟩

@[simp] theorem State.withdrawMaint_eq :
    s.withdrawMaint = { s with store := { s.store with maintWait := 0 } } := rfl

/-! ### A reported host write (R115, R150) -/

/-- All that a report to a patrol step can be: nothing, the cancel mark, or the end of a step whose
write-back was waiting. -/
theorem State.cancelStep_cases (a : Addr) :
    (s.cancelStep a = s ∧ ∀ st, s.patrol.step = some st → st.address ≠ a) ∨
    ∃ st, s.patrol.step = some st ∧ st.address = a ∧
      (¬(s.patrol.phase = .repairing ∧ st.retiring = false) ∧ s.cancelStep a =
          { s with patrol := { s.patrol with step := some { st with cancel := true } } } ∨
        s.patrol.phase = .repairing ∧ st.retiring = false ∧
          s.cancelStep a = ({ s with store := { s.store with maintWait := 0 } } : State).endStep) := by
  unfold State.cancelStep
  split
  · next st hst =>
    split
    · next ha =>
      refine .inr ⟨st, hst, ha, ?_⟩
      dsimp only
      split
      · next hr => exact .inr ⟨hr.1, hr.2, rfl⟩
      · next hr => exact .inl ⟨hr, rfl⟩
    · next ha => exact .inl ⟨rfl, fun st' h => by cases hst.symm.trans h; exact ha⟩
  · next hst => exact .inl ⟨rfl, fun st h => by simp [hst] at h⟩

/-- A report keeps the address and the source of a retire operation, its phase, and the slot that it has
allocated. -/
@[simp] theorem RetireOp.report_frame (op : RetireOp) (a : Addr) (d : Data) :
    (op.report a d).address = op.address ∧ (op.report a d).source = op.source := by
  unfold RetireOp.report
  split
  · split <;> exact ⟨rfl, rfl⟩
  · exact ⟨rfl, rfl⟩

theorem RetireOp.report_phase (op : RetireOp) (a : Addr) (d : Data) :
    ((op.report a d).phase = .read ∧ op.phase = .read) ∨
      ∃ c c', (op.report a d).phase = .write c' ∧ op.phase = .write c ∧ c'.slot = c.slot := by
  unfold RetireOp.report
  split
  · next c hc =>
    split
    · exact .inr ⟨c, _, rfl, hc, rfl⟩
    · exact .inr ⟨c, c, hc, hc, rfl⟩
  · next hr => exact .inl ⟨hr, hr⟩

end

end Sys2Proof.Machine

namespace Sys2Proof.Machine

/-! PROOFS. Invariants of single blocks: the error record queue (R89) and the bank descriptors, clamp
pairs and snapshots (R23, R27, R79). -/

/-! ### The error record queue -/

section
variable {q : ErrorQueue} {d : Detection} {frame : BitVec 16} {l : List ErrorRecord}

theorem satInc_ne_zero {w : Nat} (hw : 0 < w) (x : BitVec w) : satInc x ≠ 0 := by
  have hx := x.isLt
  have hpow : 2 ≤ 2 ^ w := by
    calc 2 = 2 ^ 1 := rfl
      _ ≤ 2 ^ w := Nat.pow_le_pow_right (by omega) hw
  unfold satInc
  split
  · next h =>
    intro h0
    have h1 := congrArg BitVec.toNat (h.symm.trans h0)
    simp only [BitVec.toNat_allOnes] at h1
    simp only [BitVec.ofNat_eq_ofNat, BitVec.toNat_ofNat, Nat.zero_mod] at h1
    omega
  · next h =>
    intro h0
    apply h
    apply BitVec.eq_of_toNat_eq
    have h1 := congrArg BitVec.toNat h0
    simp only [BitVec.toNat_add, BitVec.ofNat_eq_ofNat, BitVec.toNat_ofNat, Nat.zero_mod] at h1
    rw [Nat.mod_eq_of_lt (a := 1) (by omega)] at h1
    rw [BitVec.toNat_allOnes]
    by_contra hne
    rw [Nat.mod_eq_of_lt (by omega)] at h1
    omega

theorem Detection.record_count (d : Detection) (frame : BitVec 16) : (d.record frame).count ≠ 0 := by
  show (1 : BitVec 8) ≠ 0
  decide

/-- A part of the queue is as sound as the queue. -/
theorem ErrorQueue.wf_of_sublist {l : List ErrorRecord} {n : BitVec 8} (hq : q.wf)
    (hl : List.Sublist l q.records) : ErrorQueue.wf { records := l, loss := n } := by
  obtain ⟨hlen, hp, hc⟩ := hq
  exact ⟨hl.length_le.trans hlen, hp.sublist hl, fun r hr => hc r (hl.subset hr)⟩

/-- A new record joins a queue with room that has none of its address and kind. -/
theorem ErrorQueue.wf_append_record {n : BitVec 8} (hq : ErrorQueue.wf { records := l, loss := n })
    (hroom : l.length < 16) (hnone : ∀ y ∈ l, ¬(y.address = d.address ∧ y.kind = d.kind)) :
    ErrorQueue.wf { records := l ++ [d.record frame], loss := n } := by
  obtain ⟨-, hp, hc⟩ := hq
  refine ⟨by simpa using hroom, ?_, fun r hr => ?_⟩
  · refine List.pairwise_append.2 ⟨hp, List.pairwise_singleton _ _, fun x hx y hy => ?_⟩
    rw [List.mem_singleton.1 hy]
    exact hnone x hx
  · rcases List.mem_append.1 hr with hr | hr
    · exact hc r hr
    · rw [List.mem_singleton.1 hr]
      exact d.record_count frame

theorem removeOldestCorrected_sublist (l : List ErrorRecord) :
    List.Sublist (removeOldestCorrected l) l := by
  induction l with
  | nil => exact List.Sublist.refl _
  | cons r rs ih =>
    unfold removeOldestCorrected
    split
    · exact List.sublist_cons_self r rs
    · exact ih.cons_cons r

theorem removeOldestCorrected_length (h : l.any (fun r => r.kind == .corrected) = true) :
    (removeOldestCorrected l).length + 1 = l.length := by
  induction l with
  | nil => simp at h
  | cons r rs ih =>
    unfold removeOldestCorrected
    split
    · rfl
    · next hr =>
      simp only [List.any_cons, Bool.or_eq_true, beq_iff_eq, hr, false_or] at h
      simp only [List.length_cons, ih h]

/-- A coalesced record keeps its address and kind. -/
theorem ErrorQueue.wf_coalesce {pre post : List ErrorRecord} {x : ErrorRecord}
    (hq : q.wf) (he : q.records = pre ++ x :: post) :
    ErrorQueue.wf { q with records := pre ++ x.coalesce frame :: post } := by
  obtain ⟨hlen, hp, hc⟩ := hq
  rw [he] at hlen hp hc
  refine ⟨by simpa using hlen, ?_, fun r hr => ?_⟩
  · simpa only [List.pairwise_append, List.pairwise_cons, List.mem_cons, forall_eq_or_imp,
      ErrorRecord.coalesce] using hp
  · simp only [List.mem_append, List.mem_cons] at hr hc
    rcases hr with hr | rfl | hr
    · exact hc r (.inl hr)
    · exact satInc_ne_zero (by omega) _
    · exact hc r (.inr (.inr hr))

/-- Every filing keeps the queue sound (R89 to R96). -/
theorem ErrorQueue.file_wf (hq : q.wf) (d : Detection) (frame : BitVec 16) :
    (q.file d frame).1.wf := by
  unfold ErrorQueue.file
  split
  · next x hx =>
    obtain ⟨hm, pre, post, he, hpre⟩ := List.find?_eq_some_iff_append.1 hx
    have hother : ∀ y ∈ pre, y.matchesDet d = false := by simpa using hpre
    have hwf := ErrorQueue.wf_coalesce (frame := frame) hq he
    rwa [← coalesceFirst_append_cons frame hother hm, ← he] at hwf
  · next hnone =>
    rw [List.find?_eq_none] at hnone
    have hother : ∀ y ∈ q.records, ¬(y.address = d.address ∧ y.kind = d.kind) := fun y hy h =>
      hnone y hy (ErrorRecord.matchesDet_iff.2 h)
    split
    · next hroom => exact ErrorQueue.wf_append_record hq hroom hother
    · split
      · next hd =>
        have hsub := removeOldestCorrected_sublist q.records
        have hlen := removeOldestCorrected_length hd.2
        obtain ⟨hmax, -⟩ := id hq
        exact ErrorQueue.wf_append_record (ErrorQueue.wf_of_sublist hq hsub) (by omega)
          fun y hy => hother y (hsub.subset hy)
      · exact hq

theorem ErrorQueue.wf_empty (n : BitVec 8) : ErrorQueue.wf { records := [], loss := n } :=
  ⟨by simp, .nil, by simp⟩

end

section
variable {s t v f : State} {o : Option Instr}

theorem State.Filed.errors_wf (h : s.Filed f) (hs : s.errors.wf) : f.errors.wf := by
  rcases h.errors with he | ⟨d, he⟩
  · rw [he]; exact hs
  · rw [he]; exact ErrorQueue.file_wf hs d _

theorem State.Quiet.errors_wf (h : s.Quiet o t) (hs : s.errors.wf) : t.errors.wf := by
  cases h with
  | pinReset => exact ErrorQueue.wf_empty 0
  | powerOn => exact ErrorQueue.wf_empty 0
  | errors q h hp hq => exact ErrorQueue.wf_of_sublist hs hq.sublist
  | _ => simpa using hs

theorem State.Active.errors_wf (h : s.Active o v) (hs : s.errors.wf) : v.errors.wf := by
  have hfree : (s.setAccess none).errors.wf := hs
  have hread : ∀ r src ch, ((s.setAccess none).fileRead r src ch).errors.wf := fun r src ch =>
    (State.fileRead_filed r src ch).errors_wf hfree
  cases h with
  | firstRead r i p ch => exact hread r _ _
  | lastRead r i p ch n y =>
    simp only [State.completeLookup_frame]
    exact hread r _ _
  | drained r i ch b g q ha he hq =>
    simp only [State.takeSlot_frame]
    rcases hq with rfl | rfl
    · exact hs
    · rcases State.drainStale_cases (s := (s.setAccess none).setEngine .idle) r ch g with
        h | ⟨f, h, he⟩
      · exact h.errors_wf hs
      · simp only [he, State.reportFaulty_frame]
        exact h.errors_wf hs
  | prefetched r i =>
    simp only [State.prefetchDone_frame]
    exact hread r _ _
  | wordEnd a c f j j' out ha hc hk hf => simpa using hf.errors_wf hfree
  | wordNext a c f j j' ha hc hk hf => exact hf.errors_wf hfree
  | retireAlloc r f op c ha hop hf => exact hf.errors_wf hfree
  | retireNoSpare r f op ha hop hf => simpa using hf.errors_wf hfree
  | patrolRead r f st n ha hst hf => simpa using hf.errors_wf hfree
  | softReset => exact ErrorQueue.wf_empty 0
  | linkReset => simpa using hs
  | abort => split <;> simpa using hs
  | _ => simpa [State.movePointer_eq, State.endTableRead_eq, State.postWrite_eq] using hs

/-- Settles O56: each filing keeps the queue sound, a pop or a reset shortens it, and nothing else
touches it. -/
theorem stepKeepsErrorRecordsDistinct : Obligations.StepKeepsErrorRecordsDistinct := by
  unfold Obligations.StepKeepsErrorRecordsDistinct
  intro s t hs h
  refine step_keeps (P := fun s => s.errors.wf) (fun s h => h) (fun s t _ _ hg h => ?_)
    (fun o s t hq => hq.errors_wf) (fun o s v hv => hv.errors_wf) h hs
  obtain ⟨-, -, -, he, -⟩ := hg.frame
  rw [he]
  exact h

/-! ### Descriptors, clamp pairs and snapshots -/

theorem Context.countFaulty_wf {c : Context} (h : c.wf) : c.countFaulty.wf := h

theorem Context.commit_wf {c : Context} (h : c.wf) (n : BitVec 16) : (c.commit n).wf := by
  unfold Context.commit
  split
  · exact h
  · exact h

theorem Context.snapshot_wf {c : Context} (h : c.wf) : c.snapshot.wf := by
  obtain ⟨-, -, hclamp⟩ := id h
  exact ⟨Context.wf_bank h c.activeBank, hclamp⟩

theorem Context.reset_wf : Context.reset.wf := by decide

/-- The contexts of a vector with one record replaced. -/
theorem Vector.forall_mem_set {α : Type} {n : Nat} {p : α → Prop} {v : Vector α n} {i : Fin n}
    {x : α} (hv : ∀ c ∈ v.toList, p c) (hx : p x) : ∀ c ∈ (v.set i x).toList, p c := by
  intro c hc
  rw [Vector.toList_set] at hc
  rcases List.mem_or_eq_of_mem_set hc with hc | rfl
  · exact hv c hc
  · exact hx

/-- The channel records of a state are well formed. -/
abbrev State.channelsWf (s : State) : Prop := ∀ c ∈ s.channels.toList, c.wf

/-- The snapshots of the queued slots are well formed. -/
abbrev State.slotsWf (s : State) : Prop := ∀ sl ∈ s.link.queue, sl.wf

theorem State.channelsWf_get (h : s.channelsWf) (ch : Chan) : s.channels[ch].wf :=
  h _ (by rw [Vector.mem_toList_iff]; exact Vector.getElem_mem ch.isLt)

theorem Slot.wf_of_done {sl : Slot} {r : Response} (h : sl.phase = .done r) : sl.wf := by
  simp [Slot.wf, h]

theorem State.slotsWf_append {q : List Slot} {sl : Slot} (h : ∀ x ∈ q, x.wf) (hsl : sl.wf) :
    ∀ x ∈ q ++ [sl], x.wf := by
  intro x hx
  rcases List.mem_append.1 hx with hx | hx
  · exact h x hx
  · rw [List.mem_singleton.1 hx]; exact hsl

/-- A slot that is taken keeps its snapshot. -/
theorem State.takeSlot_slotsWf (h : s.slotsWf) : s.takeSlot.slotsWf := by
  rcases s.takeSlot_cases with he | ⟨pre, sl, post, d, n, -, hq, -, hs, he⟩
  · rw [he]; exact h
  · intro x hx
    rw [he] at hx
    simp only [State.slotsWf, hq, List.mem_append, List.mem_cons] at h hx
    rcases hx with hx | rfl | hx
    · exact h x (.inl hx)
    · have := h sl (.inr (.inl rfl))
      simpa only [Slot.wf, hs] using this
    · exact h x (.inr (.inr hx))

theorem finishReading_wf {q : List Slot} (r : Response) (h : ∀ x ∈ q, x.wf) :
    ∀ x ∈ finishReading r q, x.wf := by
  induction q with
  | nil => simp [finishReading]
  | cons sl rest ih =>
    obtain ⟨hsl, hrest⟩ := List.forall_mem_cons.1 h
    unfold finishReading
    split
    · exact List.forall_mem_cons.2 ⟨trivial, hrest⟩
    · exact List.forall_mem_cons.2 ⟨hsl, ih hrest⟩

theorem State.reportFaulty_channelsWf (h : s.channelsWf) (ch : Chan) :
    (s.reportFaulty ch).channelsWf := by
  simp only [State.channelsWf, State.reportFaulty_frame]
  exact Vector.forall_mem_set h (Context.countFaulty_wf (State.channelsWf_get h ch))

theorem State.report_channelsWf (h : s.channelsWf) (ch : Chan) (p : Progress) (r : Response) :
    (s.report ch p r).channelsWf := by
  unfold State.report
  split
  · exact State.reportFaulty_channelsWf h ch
  · exact Vector.forall_mem_set h (State.channelsWf_get h ch)

theorem State.completeLookup_contextsWf (h : s.contextsWf) (ch : Chan) (n : Snapshot)
    (p : Progress) (y : Int) : (s.completeLookup ch n p y).contextsWf := by
  obtain ⟨hc, hq⟩ := h
  refine ⟨?_, State.takeSlot_slotsWf ?_⟩
  · unfold State.completeLookup
    simp only [State.takeSlot_frame]
    exact State.report_channelsWf hc ch p _
  · simpa [State.slotsWf] using finishReading_wf _ hq

theorem State.contextsWf_of_eq (h : s.contextsWf) (hc : t.channels = s.channels)
    (hq : t.link.queue = s.link.queue) : t.contextsWf := by
  unfold State.contextsWf
  rw [hc, hq]
  exact h

theorem State.Quiet.contextsWf (h : s.Quiet o t) (hs : s.contextsWf) : t.contextsWf := by
  have hreset : ∀ c ∈ State.reset.channels.toList, c.wf := fun c hc => by
    rw [List.eq_of_mem_replicate (by simpa [State.reset] using hc : c ∈ List.replicate 16 _)]
    exact Context.reset_wf
  obtain ⟨hc, hq⟩ := id hs
  cases h with
  | pinReset => exact ⟨hreset, by simp [State.deviceReset, State.reset]⟩
  | powerOn => exact ⟨hreset, by simp [State.deviceReset, State.reset]⟩
  | delivery sl rest w he hd =>
    refine ⟨hc, fun x hx => hq x ?_⟩
    rw [he]
    exact List.mem_cons_of_mem _ (by simpa using hx)
  | channel ch c h hp hw => exact ⟨Vector.forall_mem_set hc (hw.wf (State.channelsWf_get hc ch)), hq⟩
  | _ => exact State.contextsWf_of_eq hs (by simp) (by simp)

theorem State.Active.contextsWf (h : s.Active o v) (hs : s.contextsWf) : v.contextsWf := by
  obtain ⟨hc, hq⟩ := id hs
  have hfiled : ∀ f, (s.setAccess none).Filed f → f.contextsWf := fun f hf => by
    obtain ⟨-, hch, hl, -⟩ := hf.frame
    exact State.contextsWf_of_eq hs hch (congrArg Link.queue hl)
  cases h with
  | answered w r h =>
    refine ⟨by simpa using hc, ?_⟩
    simp only [State.pushSlot_queue]
    exact State.slotsWf_append hq (Slot.wf_of_done rfl)
  | frame w =>
    refine ⟨fun c hcm => ?_, ?_⟩
    · simp only [State.acceptFrame_frame, Vector.toList_map, List.mem_map] at hcm
      obtain ⟨c', hc', rfl⟩ := hcm
      exact Context.commit_wf (hc c' hc') _
    · simp only [State.acceptFrame_frame]
      exact State.slotsWf_append hq (Slot.wf_of_done rfl)
  | bind w =>
    refine ⟨by simpa using hc, State.takeSlot_slotsWf ?_⟩
    unfold State.slotsWf
    simp only [State.pushSlot_queue]
    exact State.slotsWf_append hq (Context.snapshot_wf (State.channelsWf_get hc _))
  | linkReset =>
    refine ⟨?_, by simp⟩
    rcases State.discardSlots_channels (s := s) with he | ⟨ch, he⟩
    · simpa [he] using hc
    · simp only [State.setLink_channels, he]
      exact Vector.forall_mem_set hc (Context.countFaulty_wf (State.channelsWf_get hc ch))
  | firstRead r i p ch n =>
    exact State.contextsWf_of_eq (hfiled _ (State.fileRead_filed r .lookup (some ch))) rfl rfl
  | lastRead r i p ch n y =>
    exact State.completeLookup_contextsWf (hfiled _ (State.fileRead_filed r .lookup (some ch))) _ _ _ _
  | drained r i ch b g q ha he hd =>
    have hqueue : q.link = s.link := by rcases hd with rfl | rfl <;> simp
    refine ⟨?_, State.takeSlot_slotsWf (by rw [State.slotsWf, hqueue]; exact hq)⟩
    simp only [State.takeSlot_frame]
    rcases hd with rfl | rfl
    · exact hc
    · rcases State.drainStale_cases (s := (s.setAccess none).setEngine .idle) r ch g with
        h | ⟨f, h, hf⟩
      · obtain ⟨-, hch, -⟩ := h.frame
        rw [hch]; exact hc
      · obtain ⟨-, hch, -⟩ := h.frame
        rw [hf]
        exact State.reportFaulty_channelsWf (by rw [State.channelsWf, hch]; exact hc) ch
  | wordEnd a c f j j' out ha hc hk hf => exact State.contextsWf_of_eq (hfiled f hf) (by simp) (by simp)
  | wordNext a c f j j' ha hc hk hf => exact State.contextsWf_of_eq (hfiled f hf) rfl rfl
  | retireAlloc r f op c ha hop hf => exact State.contextsWf_of_eq (hfiled f hf) rfl rfl
  | retireNoSpare r f op ha hop hf => exact State.contextsWf_of_eq (hfiled f hf) (by simp) (by simp)
  | patrolRead r f st n ha hst hf => exact State.contextsWf_of_eq (hfiled f hf) (by simp) (by simp)
  | softReset =>
    refine ⟨fun c hcm => ?_, by simp [State.softReset]⟩
    simp only [State.softReset, Vector.toList_map, List.mem_map] at hcm
    obtain ⟨c', hc', rfl⟩ := hcm
    exact hc c' hc'
  | abort => split <;> exact State.contextsWf_of_eq hs (by simp) (by simp)
  | _ =>
    exact State.contextsWf_of_eq hs
      (by simp [State.movePointer_eq, State.endTableRead_eq, State.postWrite_eq])
      (by simp [State.movePointer_eq, State.endTableRead_eq, State.postWrite_eq])

theorem State.Grant.contextsWf (hg : s.Grant t) (h : s.contextsWf) : t.contextsWf := by
  obtain ⟨hc, hl, -⟩ := hg.frame
  exact State.contextsWf_of_eq h hc (congrArg Link.queue hl)

/-- Settles O54: a checked window write is the one way to a new descriptor or clamp pair, and a snapshot
is taken from a context. -/
theorem stepKeepsEveryBankInTheAddressSpace : Obligations.StepKeepsEveryBankInTheAddressSpace := by
  unfold Obligations.StepKeepsEveryBankInTheAddressSpace
  intro s t hs h
  exact step_keeps (P := State.contextsWf) (fun s h => h) (fun s t _ _ hg => hg.contextsWf)
    (fun o s t hq => hq.contextsWf) (fun o s v hv => hv.contextsWf) h hs

end

end Sys2Proof.Machine

namespace Sys2Proof.Machine

/-! PROOFS. The four tickets and the arguments of the jobs (R121, R123, R128). -/

section
variable {s t v f : State} {o : Option Instr} {n : Nat}

/-- Every job has accepted arguments, and the tickets still add up to the `n` that they were, or to four,
as each reset leaves them. -/
abbrev State.jobsSound (n : Nat) (s : State) : Prop :=
  (s.maint.ticketsFree + s.maint.queue.length + s.maint.run.toList.length +
      s.maint.completions.length = n ∨ s.maint.ticketsAccounted) ∧ s.maint.jobsWf

theorem State.jobsSound_of_eq (h : s.jobsSound n) (hm : t.maint = s.maint) : t.jobsSound n := by
  unfold State.jobsSound
  rw [hm]
  exact h

/-- The head of the queue becomes the running job (R127). -/
theorem State.startJob_jobsSound (h : s.jobsSound n) : s.startJob.jobsSound n := by
  rcases s.startJob_cases with he | ⟨j, rest, hrun, -, hq, he⟩
  · rw [he]; exact h
  · obtain ⟨ht, hwf, -⟩ := h
    simp only [Maint.ticketsAccounted, hrun, hq, List.mem_cons, forall_eq_or_imp] at ht hwf
    obtain ⟨hj, hrest⟩ := hwf
    rw [he]
    refine ⟨?_, hrest, fun k hk => ?_⟩
    · simpa [Maint.ticketsAccounted, Nat.add_assoc, Nat.add_comm 1] using ht
    · cases hk
      exact ⟨hj, hj.1⟩

/-- The running job's ticket goes to its completion record (R131, R132). -/
theorem State.endJob_jobsSound {j j' : RunningJob} {out : JobOutcome} {k : Option SlotNo}
    (h : s.jobsSound n) (hj : s.maint.run = some j) : (s.endJob j' out k).jobsSound n := by
  obtain ⟨ht, hwf, -⟩ := h
  have hended : (s.setMaint { s.maint with
      run := none, completions := s.maint.completions ++ [j'.completion out k] }).jobsSound n := by
    refine ⟨?_, hwf, by simp⟩
    simp only [Maint.ticketsAccounted, hj, Option.toList_some, List.length_singleton] at ht
    simp [Maint.ticketsAccounted]
    omega
  exact State.jobsSound_of_eq (State.startJob_jobsSound hended) (by simp [State.endJob])

theorem State.endStep_jobsSound (h : s.jobsSound n) : s.endStep.jobsSound n :=
  State.jobsSound_of_eq (s := (s.releaseMark.setPatrol s.patrol.advance).startJob)
    (State.startJob_jobsSound h) rfl

theorem State.endRetireJob_jobsSound {r : ReadOutcome} {out : JobOutcome} {k : Option SlotNo}
    (h : s.jobsSound n) : (s.endRetireJob r out k).jobsSound n := by
  unfold State.endRetireJob
  split
  · next j hj => exact State.endJob_jobsSound (State.jobsSound_of_eq h rfl) (j := j) hj
  · exact h

theorem State.patrolNoSpare_jobsSound {r : ReadResult} (h : s.jobsSound n) :
    (s.patrolNoSpare r).jobsSound n := by
  unfold State.patrolNoSpare
  split
  · split
    · exact State.endStep_jobsSound h
    · exact h
  · exact h

theorem State.reportHostWrite_jobsSound {a : Addr} {d : Data} (h : s.jobsSound n) :
    (s.reportHostWrite a d).jobsSound n := by
  unfold State.reportHostWrite
  rcases (s.setSparing _).cancelStep_cases a with ⟨he, -⟩ | ⟨st, -, -, ⟨-, he⟩ | ⟨-, -, he⟩⟩ <;>
    rw [he]
  · exact h
  · exact h
  · exact State.endStep_jobsSound h

theorem State.Grant.jobsSound (hg : s.Grant t) (h : s.jobsSound n) : t.jobsSound n := by
  cases hg with
  | reported p => exact State.reportHostWrite_jobsSound h
  | _ => exact h

theorem State.accept_jobsSound {kind : JobKind} {start : Addr} {count : Nat} {value : Data}
    (h : s.jobsSound n) (ht : s.maint.ticketsFree ≠ 0)
    (hwf : 1 ≤ count ∧ start.toNat + count ≤ 8192) :
    (s.setMaint (s.maint.accept kind start count value)).jobsSound n := by
  obtain ⟨hacc, hq, hrun⟩ := h
  refine ⟨?_, fun j hj => ?_, hrun⟩
  · simp only [Maint.ticketsAccounted, Maint.accept, State.setMaint_maint, List.length_append,
      List.length_singleton] at hacc ⊢
    omega
  · simp only [Maint.accept, State.setMaint_maint, List.mem_append, List.mem_singleton] at hj
    rcases hj with hj | rfl
    · exact hq j hj
    · exact hwf

/-- At ABORT_JOBS each queued job's ticket, and that of a job which stops at once, goes to its record
(R136). -/
theorem State.abort_jobsSound (h : s.jobsSound n) :
    (s.setMaint { s.maint with
      queue := []
      run := s.abortRunning.1
      completions := s.maint.completions ++ s.abortRunning.2 ++
        s.maint.queue.map Job.abortedRecord }).jobsSound n := by
  obtain ⟨hacc, -, hrun⟩ := h
  rcases State.abortRunning_cases (s := s) with
    ⟨hr, he⟩ | ⟨j, hr, ⟨-, he⟩ | ⟨-, ⟨-, he⟩ | ⟨-, he⟩⟩⟩ <;>
    simp only [Maint.ticketsAccounted, hr, Option.toList_some, Option.toList_none,
      List.length_singleton, List.length_nil] at hacc <;>
    refine ⟨by simp [Maint.ticketsAccounted, he]; omega, by simp, ?_⟩ <;>
    simp only [State.setMaint_maint, he, hr, Option.mem_def, reduceCtorEq, false_imp_iff,
      implies_true, Option.some.injEq, forall_eq'] at hrun ⊢ <;>
    exact hrun

theorem State.Quiet.jobsSound (h : s.Quiet o t) (hs : s.jobsSound n) : t.jobsSound n := by
  have hreset : State.reset.jobsSound n := by
    simp [State.jobsSound, State.reset, Maint.ticketsAccounted, Maint.jobsWf]
  cases h with
  | pinReset => exact hreset
  | powerOn => exact hreset
  | popCompletion r rest h hp hr =>
    obtain ⟨hacc, hwf⟩ := hs
    refine ⟨?_, hwf⟩
    simp only [Maint.ticketsAccounted, hr, List.length_cons] at hacc ⊢
    omega
  | args => exact hs
  | _ => exact State.jobsSound_of_eq hs (by simp)

theorem State.Active.jobsSound (h : s.Active o v) (hs : s.jobsSound n) : v.jobsSound n := by
  have hfiled : ∀ f, (s.setAccess none).Filed f → f.jobsSound n := fun f hf => by
    obtain ⟨-, -, -, -, -, hm, -⟩ := hf.frame
    exact State.jobsSound_of_eq hs hm
  cases h with
  | wordEnd a c f j j' out ha hc hk hf hj =>
    obtain ⟨-, -, -, -, -, hm, -⟩ := hf.frame
    exact State.endJob_jobsSound (hfiled f hf) (hm ▸ hj)
  | wordNext a c f j j' ha hc hk hf hj hj' hw hn =>
    obtain ⟨hacc, hq, hrun⟩ := hfiled f hf
    obtain ⟨-, -, -, -, -, hm, -⟩ := hf.frame
    have hfj : f.maint.run = some j := hm ▸ hj
    obtain ⟨hjob, hlt⟩ := hrun j hfj
    refine ⟨by simpa [Maint.ticketsAccounted, hfj] using hacc, hq, fun k hk => ?_⟩
    cases hk
    rw [hj']
    exact ⟨hjob, by omega⟩
  | retireAlloc r f op c ha hop hf => exact hfiled f hf
  | retireNoSpare r f op ha hop hf =>
    unfold State.retireNoSpare
    split
    · exact State.endRetireJob_jobsSound (hfiled f hf)
    · exact State.patrolNoSpare_jobsSound (hfiled f hf)
  | commit k op c =>
    have hm : ((s.setAccess none).mapCommit op.address c).jobsSound n :=
      State.jobsSound_of_eq hs (by simp)
    unfold State.retireDone
    split
    · exact State.endRetireJob_jobsSound hm
    · exact State.endStep_jobsSound hm
  | patrolRead r f st n ha hst hf =>
    unfold State.patrolAct
    dsimp only
    split
    · split <;> exact hfiled f hf
    · exact State.endStep_jobsSound (hfiled f hf)
  | writeBack k st => exact State.endStep_jobsSound hs
  | job kind start count value hd ht hwf hx =>
    exact State.startJob_jobsSound (State.accept_jobsSound hs ht hwf)
  | abort hd => exact State.jobsSound_of_eq (State.abort_jobsSound hs) (by split <;> simp)
  | softReset hd => simp [State.jobsSound, State.softReset, Maint.afterSoftReset,
      Maint.ticketsAccounted, Maint.jobsWf]
  | drained r i ch b g q ha he hq =>
    refine State.jobsSound_of_eq hs ?_
    rcases hq with rfl | rfl <;> simp
  | _ =>
    exact State.jobsSound_of_eq hs
      (by simp [State.movePointer_eq, State.endTableRead_eq, State.postWrite_eq])

/-- Settles O58: every event moves a ticket from one holder to the next. -/
theorem stepAccountsForEveryTicket : Obligations.StepAccountsForEveryTicket := by
  unfold Obligations.StepAccountsForEveryTicket
  intro s t hacc hwf h
  have hsound : t.jobsSound 4 := step_keeps (P := State.jobsSound 4) (fun s h => h)
    (fun s t _ _ hg => hg.jobsSound) (fun o s t hq => hq.jobsSound) (fun o s v hv => hv.jobsSound) h
    ⟨.inr hacc, hwf⟩
  exact ⟨hsound.1.elim id id, hsound.2⟩

end

end Sys2Proof.Machine

namespace Sys2Proof.Machine

/-! PROOFS. The words of the store (2.2, 2.3, 2.7): what an event does to the list of words and to the
access in progress, the list's canonical form, and the start-up fill. -/

section
variable {s t v f : State} {o : Option Instr}

/-! ### The store before the arbiter's turn -/

theorem State.accessAfterLinkReset_cases : s.accessAfterLinkReset = s.store.access ∨
    s.accessOf .lookup = true ∧ s.accessAfterLinkReset = s.store.access.map Access.discard := by
  unfold State.accessAfterLinkReset
  split
  · split
    · next h => exact .inr ⟨h, rfl⟩
    · exact .inl rfl
  · split
    · next h => exact .inr ⟨h, rfl⟩
    · exact .inl rfl
  · exact .inl rfl

/-- The access after the prefetch of the old pointer is discarded (R160). -/
theorem State.discardPrefetch_access :
    (∃ r, s.store.access = some (.read .prefetch r .wanted) ∧
      s.discardPrefetch.access = some (.read .prefetch r .stale)) ∨
    ((∀ r, s.store.access ≠ some (.read .prefetch r .wanted)) ∧
      s.discardPrefetch.access = s.store.access) := by
  unfold State.discardPrefetch
  split
  · next r h => exact .inl ⟨r, h, rfl⟩
  · next h =>
    refine .inr ⟨fun r hr => h r hr, ?_⟩
    split <;> rfl

theorem State.discardPrefetch_of_free (h : s.store.access = none) :
    s.discardPrefetch.access = none := by
  rcases State.discardPrefetch_access (s := s) with ⟨r, hr, -⟩ | ⟨-, hd⟩
  · rw [h] at hr
    cases hr
  · exact hd.trans h

/-- Before the arbiter's turn no word changes, and neither does the device state. -/
theorem State.Active.store_frame (h : s.Active o v) :
    v.store.mem = s.store.mem ∧ v.store.device = s.store.device ∧ v.store.fill = s.store.fill ∧
      v.store.resetAsserted = s.store.resetAsserted := by
  have hdiscard := State.discardPrefetch_frame (s := s)
  obtain ⟨hm, hd, -, hfill, -, -⟩ := hdiscard
  have hfiled : ∀ f, (s.setAccess none).Filed f → f.store = { s.store with access := none } :=
    fun f hf => hf.frame.1
  cases h with
  | drained r i ch b g q ha he hq => rcases hq with rfl | rfl <;> simp
  | wordEnd a c f j j' out ha hc hk hf => simp [hfiled f hf]
  | wordNext a c f j j' ha hc hk hf => simp [hfiled f hf]
  | retireAlloc r f op c ha hop hf => simp [hfiled f hf]
  | retireNoSpare r f op ha hop hf =>
    rcases State.retireNoSpare_store (s := f) op r with h | h <;> simp [h, hfiled f hf]
  | patrolRead r f st n ha hst hf =>
    rcases State.patrolAct_store (s := f) st r n with h | h <;> simp [h, hfiled f hf]
  | movePointer a => simp [State.movePointer_eq, hm, hd, hfill]
  | post w => simp [State.postWrite_eq, hm, hd, hfill]
  | postNext k i w =>
    obtain ⟨hm', hd', -, hfill', -, -⟩ := State.discardPrefetch_frame (s := s.setAccess none)
    simp [State.postWrite_eq, hm', hd', hfill']
  | abort => split <;> simp
  | _ => simp [State.endTableRead_eq, State.softReset]

/-- What becomes of the access in progress before the arbiter's turn: it goes on, the command that
completes it frees the store, or it loses its claimant's interest. -/
theorem State.Active.access_cases (h : s.Active o v) :
    v.store.access = s.store.access ∨
    (v.store.access = none ∧ ∃ a c, s.store.access = some a ∧ o = some c ∧ c ∈ a.completions) ∨
    ∃ a, s.store.access = some a ∧
      (v.store.access = some a.discard ∨ v.store.access = some a.afterSoftReset) := by
  have hfiled : ∀ f, (s.setAccess none).Filed f → f.store.access = none :=
    fun f hf => by rw [hf.frame.1]; rfl
  have hfreed : ∀ {c a}, v.store.access = none → s.store.access = some a → o = some c →
      c ∈ a.completions → v.store.access = s.store.access ∨
      (v.store.access = none ∧ ∃ a c, s.store.access = some a ∧ o = some c ∧ c ∈ a.completions) ∨
      ∃ a, s.store.access = some a ∧
        (v.store.access = some a.discard ∨ v.store.access = some a.afterSoftReset) :=
    fun hv ha ho hc => .inr (.inl ⟨hv, _, _, ha, ho, hc⟩)
  have hmap : ∀ g : Access → Access, s.store.access = none ∨
      ∃ a, s.store.access = some a ∧ s.store.access.map g = some (g a) := fun g => by
    cases hs : s.store.access with
    | none => exact .inl rfl
    | some a => exact .inr ⟨a, rfl, rfl⟩
  cases h with
  | linkReset =>
    rcases State.accessAfterLinkReset_cases (s := s) with h | ⟨-, h⟩
    · exact .inl (by simp [h])
    · rcases hmap Access.discard with hn | ⟨a, ha, hd⟩
      · exact .inl (by simp [h, hn])
      · exact .inr (.inr ⟨a, ha, .inl (by simp [h, hd])⟩)
  | firstRead r i p ch n ha => exact hfreed (by simp) ha rfl (by simp [Access.completions])
  | lastRead r i p ch n y ha => exact hfreed (by simp) ha rfl (by simp [Access.completions])
  | drained r i ch b g q ha he hq =>
    exact hfreed (by rcases hq with rfl | rfl <;> simp) ha rfl (by simp [Access.completions])
  | prefetched r i ha => exact hfreed (by simp) ha rfl (by simp [Access.completions])
  | postDone k i ha => exact hfreed (by simp) ha rfl (by simp [Access.completions])
  | postNext k i w ha =>
    exact hfreed (State.discardPrefetch_of_free (s := s.setAccess none) rfl) ha rfl
      (by simp [Access.completions])
  | freed a c ha hc => exact hfreed rfl ha rfl hc
  | wordEnd a c f j j' out ha hc hk hf => exact hfreed (by simp [hfiled f hf]) ha rfl hc
  | wordNext a c f j j' ha hc hk hf => exact hfreed (by simp [hfiled f hf]) ha rfl hc
  | retireAlloc r f op c ha hop hf =>
    exact hfreed (by simp [hfiled f hf]) ha rfl (by simp [Access.completions])
  | retireNoSpare r f op ha hop hf =>
    exact hfreed (by simp [hfiled f hf]) ha rfl (by simp [Access.completions])
  | commit k op c ha => exact hfreed (by simp) ha rfl (by simp [Access.completions])
  | patrolRead r f st n ha hst hf =>
    exact hfreed (by simp [hfiled f hf]) ha rfl (by simp [Access.completions])
  | writeBack k st ha => exact hfreed (by simp) ha rfl (by simp [Access.completions])
  | movePointer a =>
    rcases State.discardPrefetch_access (s := s) with ⟨r, hr, hd⟩ | ⟨-, hd⟩
    · exact .inr (.inr ⟨_, hr, .inl hd⟩)
    · exact .inl hd
  | post w =>
    rcases State.discardPrefetch_access (s := s) with ⟨r, hr, hd⟩ | ⟨-, hd⟩
    · exact .inr (.inr ⟨_, hr, .inl hd⟩)
    · exact .inl hd
  | abort => exact .inl (by split <;> simp)
  | softReset =>
    rcases hmap Access.afterSoftReset with hn | ⟨a, ha, hd⟩
    · exact .inl (by simp [State.softReset, hn])
    · exact .inr (.inr ⟨a, ha, .inr hd⟩)
  | _ => exact .inl (by simp [State.endTableRead_eq])

/-! ### The canonical form (log entry 2) -/

/-- The list of words is canonical, and the keys that the fill and a write in progress name are keys of
words. -/
def State.memSound (s : State) : Prop :=
  memCanonical s.store.mem ∧ (∀ k, s.store.fill = some k → k < wordCount) ∧
    ∀ tag k i, s.store.access = some (.write tag (some k) i) → k < wordCount

/-- The events that leave words, fill and writes in progress. -/
theorem State.memSound_of_eq (h : s.memSound) (hm : t.store.mem = s.store.mem)
    (hf : t.store.fill = s.store.fill)
    (ha : ∀ tag k i, t.store.access = some (.write tag k i) →
      ∃ i', s.store.access = some (.write tag k i')) : t.memSound := by
  obtain ⟨hmem, hfill, hacc⟩ := h
  refine ⟨hm ▸ hmem, hf ▸ hfill, fun tag k i hk => ?_⟩
  obtain ⟨i', hi'⟩ := ha tag _ i hk
  exact hacc tag k i' hi'

theorem State.Grant.memSound (hg : s.Grant t) (h : s.memSound) : t.memSound := by
  obtain ⟨hmem, hfill, -⟩ := h
  have hword : ∀ p : Place, p.key < wordCount := Place.key_lt_wordCount
  cases hg with
  | reported p =>
    refine ⟨?_, ?_, fun tag k i hk => ?_⟩
    · simpa [State.takenWrite] using memWrite_canonical hmem (hword _) _
    · simpa [State.takenWrite] using hfill
    · simp only [State.reportHostWrite_frame, State.takenWrite, Option.some.injEq,
        Access.write.injEq] at hk
      exact hk.2.1 ▸ hword _
  | taken p =>
    refine ⟨memWrite_canonical hmem (hword _) _, hfill, fun tag k i hk => ?_⟩
    simp only [State.takenWrite, Option.some.injEq, Access.write.injEq] at hk
    exact hk.2.1 ▸ hword _
  | maintWrite tag a d =>
    refine ⟨memWrite_canonical hmem (hword _) _, hfill, fun tag k i hk => ?_⟩
    simp only [State.maintWrite, Option.some.injEq, Access.write.injEq] at hk
    exact hk.2.1 ▸ hword _
  | spareWrite k d =>
    refine ⟨memWrite_canonical hmem (hword _) _, hfill, fun tag k i hk => ?_⟩
    simp only [Option.some.injEq, Access.write.injEq] at hk
    exact hk.2.1 ▸ hword _
  | _ => exact ⟨hmem, hfill, by simp [State.refusedWrite, State.countRefusal]⟩

theorem State.memAfterReset_canonical (h : s.memSound) : memCanonical s.memAfterReset := by
  obtain ⟨hmem, hfill, hacc⟩ := h
  unfold State.memAfterReset
  split
  · next k hk =>
    refine memWrite_canonical hmem ?_ _
    unfold State.abandonedKey at hk
    split at hk
    · next j hj => exact hfill k (hj.trans hk)
    · next ha => exact hacc _ k _ (hk ▸ ha)
    · cases hk
  · exact hmem

theorem State.Quiet.memSound (h : s.Quiet o t) (hs : s.memSound) : t.memSound := by
  obtain ⟨hmem, hfill, hacc⟩ := id hs
  cases h with
  | pinReset =>
    exact ⟨State.memAfterReset_canonical hs, by simp [State.deviceReset],
      by simp [State.deviceReset, State.reset]⟩
  | powerOn =>
    refine ⟨reset_memory_canonical, fun k hk => ?_, by simp [State.deviceReset, State.reset]⟩
    cases hk
    decide
  | release =>
    refine ⟨hmem, fun k hk => ?_, hacc⟩
    cases hk
    decide
  | fillNext k hf hk =>
    refine ⟨memWrite_canonical hmem (hfill k hf) _, fun j hj => ?_, hacc⟩
    cases hj
    exact hk
  | fillLast k hf hk => exact ⟨memWrite_canonical hmem (hfill k hf) _, by simp, hacc⟩
  | disturb p d m => exact ⟨memWrite_canonical hmem (Place.key_lt_wordCount p) _, hfill, hacc⟩
  | linkTimeout => exact State.memSound_of_eq hs (by simp) (by simp) fun _ _ i h => ⟨i, by simpa using h⟩
  | _ => exact hs

theorem State.Active.memSound (h : s.Active o v) (hs : s.memSound) : v.memSound := by
  obtain ⟨hm, -, hf, -⟩ := h.store_frame
  refine State.memSound_of_eq hs hm hf fun tag k i hv => ?_
  rcases h.access_cases with he | ⟨he, -⟩ | ⟨a, ha, he | he⟩
  · exact ⟨i, he ▸ hv⟩
  · rw [he] at hv; cases hv
  · rw [he] at hv
    cases a with
    | read => cases hv
    | write tag' k' i' => cases hv; exact ⟨_, ha⟩
  · rw [he] at hv
    cases a with
    | read => cases hv
    | write tag' k' i' => cases tag' <;> cases hv <;> exact ⟨_, ha⟩

/-- Settles O51: every key that an event writes is a word's. -/
theorem stepKeepsTheMemoryCanonical : Obligations.StepKeepsTheMemoryCanonical := by
  unfold Obligations.StepKeepsTheMemoryCanonical
  intro s t hmem _ _ hfill hacc h
  exact step_keeps (P := State.memSound) (fun s h => h) (fun s t _ _ hg => hg.memSound)
    (fun o s t hq => hq.memSound) (fun o s v hv => hv.memSound) h ⟨hmem, hfill, hacc⟩

/-! ### Which events change a word -/

theorem State.word_congr (h : t.store.mem = s.store.mem) (p : Place) : t.word p = s.word p := by
  rw [State.word, State.word, h]

/-- A write that stores data with its check bits in one word. -/
def State.StoresAt (s t : State) (tag : WriteTag) (p : Place) (d : Data) : Prop :=
  t.store.access = some (.write tag (some p.key) .wanted) ∧
    t.store.mem = memWrite s.store.mem p.key (encodeWord d)

/-- The word that such a write stores is the one word that changes. -/
theorem State.StoresAt.word {tag : WriteTag} {p q : Place} {d : Data} (h : s.StoresAt t tag p d)
    (hm : memCanonical s.store.mem) : t.word q = if q = p then encodeWord d else s.word q := by
  obtain ⟨-, hmem⟩ := h
  rw [← State.word_putWord hm p q (encodeWord d)]
  exact State.word_congr hmem q

/-- A grant stores nothing, or one write at the place that its claim reaches. -/
theorem State.Grant.stores (hg : s.Grant t) : t.store.mem = s.store.mem ∨
    ∃ tag p d, s.StoresAt t tag p d := by
  cases hg with
  | taken p => exact .inr ⟨_, _, _, rfl, rfl⟩
  | reported p =>
    refine .inr ⟨.posted, s.resolve p.address, p.data, ?_, ?_⟩ <;> simp [State.takenWrite]
  | maintWrite tag a d => exact .inr ⟨_, _, _, rfl, rfl⟩
  | spareWrite k d => exact .inr ⟨_, _, _, rfl, rfl⟩
  | _ => exact .inl rfl

/-- Without the arbiter's turn a word changes by a reset, the fill's turn or a disturbance. -/
theorem State.Quiet.word_cases (h : s.Quiet o t) (hm : memCanonical s.store.mem) {p : Place}
    (hp : t.word p ≠ s.word p) :
    (∃ d m, o = some (.storedBitDisturbance p d m)) ∨ (∃ cause, o = some (.deviceReset cause)) ∨
      o = some .startUpFillWriteCompletion ∧ s.store.fill = some p.key := by
  cases h with
  | pinReset => exact .inr (.inl ⟨_, rfl⟩)
  | powerOn => exact .inr (.inl ⟨_, rfl⟩)
  | fillNext k hf =>
    refine .inr (.inr ⟨rfl, ?_⟩)
    by_contra hne
    exact hp (memRead_memWrite_ne _ _ fun he => hne (he ▸ hf))
  | fillLast k hf =>
    refine .inr (.inr ⟨rfl, ?_⟩)
    by_contra hne
    exact hp (memRead_memWrite_ne _ _ fun he => hne (he ▸ hf))
  | disturb q d m =>
    have hq : p = q := by
      by_contra hne
      exact hp (by rw [State.word_putWord hm, if_neg hne])
    exact .inl ⟨d, m, by rw [hq]⟩
  | linkTimeout => exact absurd (State.word_congr (by simp) p) hp
  | _ => exact absurd (State.word_congr rfl p) hp

/-- The owed grant takes a free store. -/
theorem State.grantOwed_access : s.grantOwed.store.access = s.store.access ∨
    s.store.access = none ∧ s.grantOwed.store.access ≠ none := by
  rcases s.grantOwed_cases with h | ⟨-, ha, a, -, -, h⟩
  · exact .inl (by rw [h])
  · exact .inr ⟨ha, by rw [h]; simp⟩

/-- Settles O14: before the arbiter's turn no word changes, so a new word is a reset's, the fill's, a
disturbance's or that of the write granted at the end of the event. -/
theorem wordsChangeOnlyByWritesAndDisturbance :
    Obligations.WordsChangeOnlyByWritesAndDisturbance := by
  unfold Obligations.WordsChangeOnlyByWritesAndDisturbance
  intro s t p hm h hp front
  have hfront : ∀ c, s.pending.head? = some c → front c := fun c hc => by
    obtain ⟨rest, hr⟩ := List.head?_eq_some_iff.1 hc
    exact ⟨rest, hr⟩
  have hmu : s.popped.grantOwed.store.mem = s.store.mem := by simp [State.popped]
  have hfu : s.popped.grantOwed.store.fill = s.store.fill := by simp [State.popped]
  have hpu : t.word p ≠ s.popped.grantOwed.word p := by rw [State.word_congr hmu]; exact hp
  rcases effect_of_step h with hq | ⟨v, hv, he⟩
  · rcases hq.word_cases (hmu ▸ hm) hpu with ⟨d, m, ho⟩ | ⟨cause, ho⟩ | ⟨ho, hf⟩
    · exact .inl ⟨d, m, hfront _ ho⟩
    · exact .inr (.inl ⟨cause, hfront _ ho⟩)
    · exact .inr (.inr (.inl ⟨hfront _ ho, hfu ▸ hf⟩))
  · obtain ⟨hvm, -⟩ := hv.store_frame
    have hmv : memCanonical v.store.mem := by rw [hvm, hmu]; exact hm
    have hpv : t.word p ≠ v.word p := by rw [State.word_congr hvm]; exact hpu
    rcases he.cases with rfl | rfl
    · exact absurd rfl hpv
    rcases v.settle_cases with hs | ⟨-, hfree, hg⟩
    · exact absurd (by rw [hs]) hpv
    rcases hg.stores with hs | ⟨tag, q, d, hst⟩
    · exact absurd (State.word_congr hs p) hpv
    have hpq : p = q := by
      by_contra hne
      exact hpv (by rw [hst.word hmv, if_neg hne])
    refine .inr (.inr (.inr ⟨fun a ha => ?_, tag, d, hpq ▸ hst.1, ?_⟩))
    · have hua : s.popped.grantOwed.store.access = some a := by
        rcases s.popped.grantOwed_access with hu | ⟨hn, -⟩
        · exact hu.trans ha
        · rw [State.popped, ha] at hn; cases hn
      rcases hv.access_cases with hk | ⟨-, b, c, hb, ho, hc⟩ | ⟨b, -, hk | hk⟩
      · rw [hk, hua] at hfree; cases hfree
      · cases hua.symm.trans hb
        exact ⟨c, hc, hfront c ho⟩
      · rw [hk] at hfree; cases hfree
      · rw [hk] at hfree; cases hfree
    · rw [hst.word hmv, if_pos hpq, encodeWord]

/-! ### The start-up fill (R19) -/

/-- Through the fill the words before its turn are zero, and after it all of them. -/
def State.FilledBelow (s : State) : Prop :=
  (∀ n, s.store.fill = some n → ∀ p : Place, p.key < n → s.word p = StoredWord.zero) ∧
    (s.store.device = .running → ∀ p : Place, s.word p = StoredWord.zero)

/-- In START_UP only the resets, the release, the fill's turn and a disturbance touch the words, the fill
or the device state. -/
theorem State.Quiet.filledBelow (h : s.Quiet o t) {k : Nat} (hm : memCanonical s.store.mem)
    (hd : s.store.device = .startUp) (hk : s.store.fill = some k)
    (hz : ∀ p : Place, p.key < k → s.word p = StoredWord.zero)
    (ho : ∀ p d m, o ≠ some (.storedBitDisturbance p d m)) : t.FilledBelow := by
  have hsame : ∀ u : State, u.store.mem = s.store.mem → u.store.fill = s.store.fill →
      u.store.device = s.store.device → u.FilledBelow := fun u hum huf hud =>
    ⟨fun n hn p hp => by
      rw [huf, hk] at hn
      cases hn
      rw [State.word_congr hum, hz p hp],
    fun hr => by rw [hud, hd] at hr; cases hr⟩
  have hwrite : ∀ u : State, u.store.mem = memWrite s.store.mem k StoredWord.zero →
      ∀ p : Place, p.key < k + 1 → u.word p = StoredWord.zero := fun u hu p hp => by
    rw [State.word, hu, memRead_memWrite hm]
    split
    · rfl
    · next hne => exact hz p (by omega)
  cases h with
  | pinReset => exact ⟨by simp [State.deviceReset], by simp [State.deviceReset, State.reset]⟩
  | powerOn =>
    exact ⟨fun n hn p hp => by cases hn; omega, by simp [State.deviceReset, State.reset]⟩
  | release => exact ⟨fun n hn p hp => by cases hn; omega, fun hr => by simp [hd] at hr⟩
  | fillNext j hj =>
    cases hk.symm.trans hj
    refine ⟨fun n hn p hp => ?_, fun hr => by simp [hd] at hr⟩
    cases hn
    exact hwrite _ rfl p hp
  | fillLast j hj hlast =>
    cases hk.symm.trans hj
    refine ⟨by simp, fun _ p => hwrite _ rfl p ?_⟩
    have := Place.key_lt_wordCount p
    omega
  | disturb p d m => exact absurd rfl (ho p d m)
  | linkTimeout => exact hsame _ (by simp) (by simp) (by simp)
  | _ => exact hsame _ rfl rfl rfl

/-- Settles O7: each fill write puts a zero in its turn's word, a reset begins the fill again, and in
START_UP the arbiter grants nothing. -/
theorem filledWordsStayZero : Obligations.FilledWordsStayZero := by
  unfold Obligations.FilledWordsStayZero
  intro c s t k hm _ hd hk _ hz hc h
  suffices ht : t.FilledBelow from ht
  have hg : s.grantOwed = s := s.grantOwed_of_none fun hr => by simp [hd] at hr
  have heff := effect_of_exec h
  rw [hg] at heff
  rcases heff with hq | ⟨v, hv, he⟩
  · exact hq.filledBelow hm hd hk hz fun p d m ho => hc p d m (Option.some.inj ho)
  · obtain ⟨hvm, hvd, hvf, -⟩ := hv.store_frame
    have ht : t = v := by
      rcases he.cases with rfl | rfl
      · rfl
      · exact v.settle_of_no_grant (.inl (hvd.trans hd))
    refine ⟨fun n hn p hp => ?_, fun hr => ?_⟩
    · rw [ht, hvf, hk] at hn
      cases hn
      rw [ht, State.word_congr hvm, hz p hp, StoredWord.zero]
    · rw [ht, hvd, hd] at hr
      cases hr

end

end Sys2Proof.Machine

namespace Sys2Proof.Machine

/-! PROOFS. Word sparing (chapter 7): the spare map by its entries' indexes, the map commit, and the
agreement of map and slots. -/

/-! ### The spare map by index -/

section
variable {m : Vector (Option MapEntry) 16} {a : Addr} {k : SlotNo}

/-- No two valid entries give `g` the same value. -/
def EntriesDiffer {β : Type} (m : Vector (Option MapEntry) 16) (g : MapEntry → β) : Prop :=
  ∀ (i j : Fin 16) (e f : MapEntry), m[i] = some e → m[j] = some f → g e = g f → i = j

theorem nodup_entries_iff {β : Type} (g : MapEntry → β) :
    ((m.toList.filterMap id).map g).Nodup ↔ EntriesDiffer m g := by
  rw [List.Nodup, List.pairwise_map, List.pairwise_filterMap, List.pairwise_iff_getElem]
  constructor
  · intro h i j e f hi hj hg
    rcases Nat.lt_trichotomy i.val j.val with hlt | heq | hlt
    · exact absurd hg (h i j (by simp) (by simp) hlt e (by simpa using hi) f (by simpa using hj))
    · exact Fin.ext heq
    · exact absurd hg.symm
        (h j i (by simp) (by simp) hlt f (by simpa using hj) e (by simpa using hi))
  · intro h i j hi hj hlt e he f hf hg
    have := h ⟨i, by simpa using hi⟩ ⟨j, by simpa using hj⟩ e f (by simpa using he)
      (by simpa using hf) hg
    simp only [Fin.mk.injEq] at this
    omega

theorem mem_entries_iff {e : MapEntry} : e ∈ m.toList.filterMap id ↔ ∃ i : Fin 16, m[i] = some e := by
  rw [List.mem_filterMap]
  simp only [id_eq, exists_eq_right]
  rw [List.mem_iff_getElem]
  constructor
  · rintro ⟨i, hi, he⟩
    exact ⟨⟨i, by simpa using hi⟩, by simpa using he⟩
  · rintro ⟨i, he⟩
    exact ⟨i, by simp, by simpa using he⟩

theorem Vector.get_set {α : Type} {n : Nat} (v : Vector α n) (i j : Fin n) (x : α) :
    (v.set i x)[j] = if j = i then x else v[j] := by
  simp only [Fin.getElem_fin, Vector.getElem_set, Fin.ext_iff, eq_comm]

/-- What a lookup finds by its address (R107). -/
theorem mapLookup_eq_some_iff (hd : EntriesDiffer m MapEntry.address) :
    mapLookup m.toList a = some k ↔ ∃ i : Fin 16, m[i] = some ⟨a, k⟩ := by
  have hn := (nodup_entries_iff MapEntry.address).2 hd
  constructor
  · intro h
    by_cases hx : ∃ e ∈ m.toList.filterMap id, e.address = a
    · obtain ⟨e, he, rfl⟩ := hx
      rw [mapLookup_of_mem hn he] at h
      cases h
      exact mem_entries_iff.1 he
    · simp only [not_exists, not_and] at hx
      rw [mapLookup_of_forall_ne hx] at h
      cases h
  · intro h
    exact mapLookup_of_mem (e := ⟨a, k⟩) hn (mem_entries_iff.2 h)

/-! ### The entry that a commit uses (R107) -/

/-- The entry at index `i` may name `a` anew: it names it already, or it is invalid and no entry does. -/
def FitsEntry (m : Vector (Option MapEntry) 16) (a : Addr) (i : Fin 16) : Prop :=
  (∃ e, m[i] = some e ∧ e.address = a) ∨
    m[i] = none ∧ ∀ (j : Fin 16) e, m[j] = some e → e.address ≠ a

theorem exists_commitEntry (h : ∃ i : Fin 16, m[i] = none) (a : Addr) (k : SlotNo) :
    ∃ i, FitsEntry m a i ∧ commitEntry m a k = m.set i (some ⟨a, k⟩) := by
  unfold commitEntry
  split
  · next i hi =>
    have hp := List.find?_some hi
    simp only [beq_iff_eq, Option.map_eq_some_iff] at hp
    exact ⟨i, .inl hp, rfl⟩
  · next hnone =>
    have hne : ∀ (j : Fin 16) e, m[j] = some e → e.address ≠ a := fun j e he ha => by
      have := List.find?_eq_none.1 hnone j (List.mem_finRange j)
      simp only [he, Option.map_some, ha, beq_self_eq_true, not_true_eq_false] at this
    obtain ⟨i₀, hi₀⟩ := h
    split
    · next i hi =>
      have hp := List.find?_some hi
      exact ⟨i, .inr ⟨Option.isNone_iff_eq_none.1 hp, hne⟩, rfl⟩
    · next hfull =>
      have := List.find?_eq_none.1 hfull i₀ (List.mem_finRange i₀)
      simp [hi₀] at this

section
variable {i : Fin 16} (hd : EntriesDiffer m MapEntry.address) (hi : FitsEntry m a i)
include hd hi

/-- The other entries name other addresses. -/
theorem FitsEntry.other {j : Fin 16} {e : MapEntry} (hj : m[j] = some e) (hne : j ≠ i) :
    e.address ≠ a := by
  rcases hi with ⟨f, hf, ha⟩ | ⟨-, hother⟩
  · intro he
    exact hne (hd j i e f hj hf (he.trans ha.symm))
  · exact hother j e hj

theorem FitsEntry.differ_address : EntriesDiffer (m.set i (some ⟨a, k⟩)) MapEntry.address := by
  intro x y e f hx hy hg
  rw [Vector.get_set] at hx hy
  split at hx <;> split at hy
  · next h1 h2 => rw [h1, h2]
  · next h1 h2 => cases hx; exact absurd hg.symm (FitsEntry.other hd hi hy h2)
  · next h1 h2 => cases hy; exact absurd hg (FitsEntry.other hd hi hx h1)
  · exact hd x y e f hx hy hg

/-- After the commit the address reaches the committed slot (R114). -/
theorem FitsEntry.lookup_self : mapLookup (m.set i (some ⟨a, k⟩)).toList a = some k :=
  (mapLookup_eq_some_iff (FitsEntry.differ_address hd hi)).2 ⟨i, by rw [Vector.get_set, if_pos rfl]⟩

/-- Every other address is as before (R114). -/
theorem FitsEntry.lookup_other {b : Addr} (hb : b ≠ a) :
    mapLookup (m.set i (some ⟨a, k⟩)).toList b = mapLookup m.toList b := by
  have hd' := FitsEntry.differ_address (k := k) hd hi
  have hsame : ∀ (j : Fin 16) n, (m.set i (some ⟨a, k⟩))[j] = some ⟨b, n⟩ ↔ m[j] = some ⟨b, n⟩ := by
    intro j n
    rw [Vector.get_set]
    split
    · next hj =>
      subst hj
      constructor
      · intro h
        cases h
        exact absurd rfl hb
      · intro h
        rcases hi with ⟨e, he, ha⟩ | ⟨hn, -⟩
        · cases he.symm.trans h
          exact absurd ha hb
        · cases hn.symm.trans h
    · rfl
  ext n
  rw [mapLookup_eq_some_iff hd', mapLookup_eq_some_iff hd]
  simp only [hsame]

end
end

/-! ### Map and slots in agreement (R105, R107) -/

/-- The agreement of map and slots, without what a retire operation in progress adds. -/
structure Sparing.mapWf (sp : Sparing) : Prop where
  address : EntriesDiffer sp.map MapEntry.address
  slot : EntriesDiffer sp.map MapEntry.slot
  mapped : ∀ k : SlotNo, sp.slots[k].state = .mapped ↔
    ∃ (i : Fin 16) (e : MapEntry), sp.map[i] = some e ∧ e.slot = k
  poison : ∀ k : SlotNo, sp.slots[k].poison = true → sp.slots[k].state = .mapped

theorem Sparing.wf_iff {sp : Sparing} :
    sp.wf ↔ sp.mapWf ∧ ∀ k ∈ sp.allocated, sp.slots[k].state = .free := by
  have hmem : ∀ k, k ∈ sp.entries.map MapEntry.slot ↔
      ∃ (i : Fin 16) (e : MapEntry), sp.map[i] = some e ∧ e.slot = k := fun k => by
    simp only [List.mem_map, Sparing.entries, mem_entries_iff]
    exact ⟨fun ⟨e, ⟨i, hi⟩, he⟩ => ⟨i, e, hi, he⟩, fun ⟨i, e, hi, he⟩ => ⟨e, ⟨i, hi⟩, he⟩⟩
  constructor
  · rintro ⟨ha, hs, hm, hp, hf⟩
    exact ⟨⟨(nodup_entries_iff _).1 ha, (nodup_entries_iff _).1 hs,
      fun k => (hm k).trans (hmem k), hp⟩, hf⟩
  · rintro ⟨⟨ha, hs, hm, hp⟩, hf⟩
    exact ⟨(nodup_entries_iff _).2 ha, (nodup_entries_iff _).2 hs,
      fun k => (hm k).trans (hmem k).symm, hp, hf⟩

/-- A spare slot with its state, the map as it was, and no new poison. -/
theorem Sparing.mapWf_of_slots {sp sp' : Sparing} (h : sp.mapWf) (hm : sp'.map = sp.map)
    (hs : ∀ k : SlotNo, sp'.slots[k].state = sp.slots[k].state)
    (hp : ∀ k : SlotNo, sp'.slots[k].poison = true → sp.slots[k].poison = true) : sp'.mapWf := by
  refine ⟨hm ▸ h.address, hm ▸ h.slot, fun k => ?_, fun k hk => ?_⟩
  · rw [hs, hm]; exact h.mapped k
  · rw [hs]; exact h.poison k (hp k hk)

theorem Sparing.slotsAfterWrite_get (sp : Sparing) (p : Place) (k : SlotNo) :
    (sp.slotsAfterWrite p)[k] =
      if p = .spare k then { sp.slots[k] with poison := false } else sp.slots[k] := by
  cases p with
  | main a => rw [if_neg (by simp)]; rfl
  | spare j =>
    rw [Sparing.slotsAfterWrite, Vector.get_set]
    by_cases h : k = j
    · subst h
      rw [if_pos rfl, if_pos rfl]
    · rw [if_neg h, if_neg fun he => h (Place.spare.inj he).symm]

theorem Sparing.setSlot_get (sp : Sparing) (k j : SlotNo) (v : SpareSlot) :
    (sp.setSlot k v).slots[j] = if j = k then v else sp.slots[j] := Vector.get_set _ _ _ _

/-- A slot that is FREE is named by no entry. -/
theorem Sparing.mapWf.not_named {sp : Sparing} (h : sp.mapWf) {k : SlotNo}
    (hk : sp.slots[k].state = .free) {i : Fin 16} {e : MapEntry} (he : sp.map[i] = some e) :
    e.slot ≠ k := by
  intro hs
  have := (h.mapped k).2 ⟨i, e, he, hs⟩
  rw [hk] at this
  cases this

/-- With a FREE slot there is an invalid entry: sixteen valid ones would name all sixteen slots. -/
theorem Sparing.mapWf.exists_invalid {sp : Sparing} (h : sp.mapWf) {k : SlotNo}
    (hk : sp.slots[k].state = .free) : ∃ i : Fin 16, sp.map[i] = none := by
  by_contra hfull
  simp only [not_exists, ← ne_eq, Option.ne_none_iff_exists'] at hfull
  choose e he using hfull
  have hinj : Function.Injective fun i => (e i).slot := fun i j hij => h.slot i j _ _ (he i) (he j) hij
  obtain ⟨i, hi⟩ := Finite.injective_iff_surjective.1 hinj k
  exact h.not_named hk (he i) hi

/-! ### The map commit (R114) -/

section
variable {sp : Sparing} {a : Addr} {c : RetireCopy}

/-- Each slot after a commit: the allocated one MAPPED, the one replaced DEFECTIVE, the rest as before. -/
theorem Sparing.commit_get (j : SlotNo) : (sp.commit a c).slots[j] =
    if j = c.slot then ⟨.mapped, c.poison⟩
    else if mapLookup sp.map.toList a = some j then ⟨.defective, false⟩ else sp.slots[j] := by
  unfold Sparing.commit
  split
  · next old hold =>
    simp only [Sparing.setSlot_get, hold, Option.some.injEq, @eq_comm _ old j]
  · next hnone => simp only [Sparing.setSlot_get, hnone, reduceCtorEq, if_false]

theorem Sparing.commit_map : (sp.commit a c).map = commitEntry sp.map a c.slot := rfl

theorem Sparing.commit_retire : (sp.commit a c).retire = sp.retire := by
  unfold Sparing.commit
  split <;> rfl

section
variable (h : sp.mapWf) (hc : sp.slots[c.slot].state = .free)
include h hc

theorem Sparing.commit_lookup : mapLookup (sp.commit a c).map.toList a = some c.slot ∧
    ∀ b, b ≠ a → mapLookup (sp.commit a c).map.toList b = mapLookup sp.map.toList b := by
  obtain ⟨i, hi, he⟩ := exists_commitEntry (h.exists_invalid hc) a c.slot
  rw [Sparing.commit_map, he]
  exact ⟨FitsEntry.lookup_self h.address hi, fun b => FitsEntry.lookup_other h.address hi⟩

/-- The slot that the address reached before is a MAPPED one, so it is not the allocated slot. -/
theorem Sparing.mapWf.lookup_ne_free {j : SlotNo} (hj : mapLookup sp.map.toList a = some j) :
    sp.slots[j].state = .mapped ∧ j ≠ c.slot := by
  obtain ⟨i, hi⟩ := (mapLookup_eq_some_iff h.address).1 hj
  have hm := (h.mapped j).2 ⟨i, _, hi, rfl⟩
  exact ⟨hm, fun he => by rw [he, hc] at hm; cases hm⟩

/-- A commit keeps the agreement. -/
theorem Sparing.commit_mapWf : (sp.commit a c).mapWf := by
  obtain ⟨i, hi, he⟩ := exists_commitEntry (h.exists_invalid hc) a c.slot
  have hmap : (sp.commit a c).map = sp.map.set i (some ⟨a, c.slot⟩) := he
  have hentry : ∀ j : Fin 16, (sp.commit a c).map[j] =
      if j = i then some ⟨a, c.slot⟩ else sp.map[j] := fun j => by rw [hmap, Vector.get_set]
  have hold : ∀ j : Fin 16, ∀ e, j ≠ i → sp.map[j] = some e →
      mapLookup sp.map.toList a ≠ some e.slot := fun j e hj hje hl => by
    obtain ⟨x, hx⟩ := (mapLookup_eq_some_iff h.address).1 hl
    have hxj : x = j := h.slot x j _ e hx hje rfl
    rw [hxj] at hx
    have he' : e = ⟨a, e.slot⟩ := Option.some.inj (hje.symm.trans hx)
    exact FitsEntry.other h.address hi hje hj (congrArg MapEntry.address he')
  refine ⟨hmap ▸ FitsEntry.differ_address h.address hi, ?_, fun k => ?_, fun k hk => ?_⟩
  · intro x y e f hx hy hg
    rw [hentry] at hx hy
    split at hx <;> split at hy
    · next h1 h2 => rw [h1, h2]
    · cases hx; exact absurd hg.symm (h.not_named hc hy)
    · cases hy; exact absurd hg (h.not_named hc hx)
    · exact h.slot x y e f hx hy hg
  · rw [Sparing.commit_get]
    constructor
    · intro hm
      split at hm
      · next hk => exact ⟨i, ⟨a, c.slot⟩, by rw [hentry, if_pos rfl], hk.symm⟩
      · split at hm
        · cases hm
        · next hl =>
          obtain ⟨j, e, hj, hs⟩ := (h.mapped k).1 hm
          by_cases hji : j = i
          · exfalso
            rcases hi with ⟨f, hf, hfa⟩ | ⟨hn, -⟩
            · rw [hji] at hj
              cases hj.symm.trans hf
              refine hl ((mapLookup_eq_some_iff h.address).2 ⟨i, ?_⟩)
              rw [hj, ← hfa, ← hs]
            · rw [hji, hn] at hj; cases hj
          · exact ⟨j, e, by rw [hentry, if_neg hji]; exact hj, hs⟩
    · rintro ⟨j, e, hj, hs⟩
      rw [hentry] at hj
      split at hj
      · cases hj
        rw [if_pos hs.symm]
      · next hji =>
        subst hs
        rw [if_neg (h.not_named hc hj), if_neg (hold j e hji hj)]
        exact (h.mapped _).2 ⟨j, e, hj, rfl⟩
  · rw [Sparing.commit_get] at hk ⊢
    split
    · rfl
    · next hne =>
      rw [if_neg hne] at hk
      split at hk
      · cases hk
      · next hl => rw [if_neg hl]; exact h.poison k hk

/-- A commit uses up one FREE slot (R109). -/
theorem Sparing.commit_freeCount : (sp.commit a c).freeCount + 1 = sp.freeCount := by
  have hcard : ∀ q : Sparing, q.freeCount =
      (Finset.univ.filter fun k : SlotNo => q.slots[k].state = .free).card := fun q => by
    rw [Sparing.freeCount_eq]
    rfl
  have herase : (Finset.univ.filter fun k : SlotNo => (sp.commit a c).slots[k].state = .free) =
      (Finset.univ.filter fun k : SlotNo => sp.slots[k].state = .free).erase c.slot := by
    ext k
    simp only [Finset.mem_filter, Finset.mem_univ, true_and, Finset.mem_erase]
    rw [Sparing.commit_get]
    by_cases hk : k = c.slot
    · simp [hk]
    · rw [if_neg hk]
      split
      · next hl =>
        obtain ⟨hm, -⟩ := h.lookup_ne_free hc hl
        exact ⟨fun hf => (by cases hf), fun hf => by rw [hm] at hf; cases hf.2⟩
      · exact ⟨fun hf => ⟨hk, hf⟩, fun hf => hf.2⟩
  rw [hcard, hcard, herase]
  exact Finset.card_erase_add_one (Finset.mem_filter.2 ⟨Finset.mem_univ _, hc⟩)

end
end

/-! ### What the events do to the spares -/

section
variable {s t v f : State} {o : Option Instr}

/-- Slots and map as they were, and no slot newly allocated. -/
structure State.SparesKept (s t : State) : Prop where
  slots : t.sparing.slots = s.sparing.slots
  map : t.sparing.map = s.sparing.map
  allocated : ∀ k ∈ t.sparing.allocated, k ∈ s.sparing.allocated

theorem State.sparesKept_of_eq (h : t.sparing = s.sparing) : s.SparesKept t :=
  ⟨by rw [h], by rw [h], fun k hk => by rw [← h]; exact hk⟩

theorem State.SparesKept.trans {u : State} (h : s.SparesKept t) (h' : t.SparesKept u) :
    s.SparesKept u :=
  ⟨h'.slots.trans h.slots, h'.map.trans h.map, fun k hk => h.allocated k (h'.allocated k hk)⟩

theorem State.SparesKept.congr {s' t' : State} (h : s.SparesKept t) (hs : s.sparing = s'.sparing)
    (ht : t'.sparing = t.sparing) : s'.SparesKept t' :=
  (State.sparesKept_of_eq hs).trans (h.trans (State.sparesKept_of_eq ht))

theorem State.SparesKept.wf (h : s.SparesKept t) (hs : s.sparing.wf) : t.sparing.wf := by
  rw [Sparing.wf_iff] at hs ⊢
  obtain ⟨hm, hf⟩ := hs
  refine ⟨Sparing.mapWf_of_slots hm h.map (fun k => by rw [h.slots]) fun k hk => by
    rwa [h.slots] at hk, fun k hk => ?_⟩
  rw [h.slots]
  exact hf k (h.allocated k hk)

/-- A retire operation that starts has allocated nothing (R111). -/
theorem State.startJob_sparesKept : s.SparesKept s.startJob := by
  obtain ⟨hs, hm⟩ := s.startJob_spares
  refine ⟨hs, hm, fun k hk => ?_⟩
  rcases s.startJob_cases with he | ⟨j, rest, -, -, -, he⟩ <;> rw [he] at hk
  · exact hk
  · by_cases hj : j.kind = .retire
    · simp [Sparing.allocated, hj] at hk
    · simpa [Sparing.allocated, hj] using hk

theorem State.clearRetire_sparesKept : s.SparesKept s.clearRetire :=
  ⟨rfl, rfl, fun k hk => by simp [Sparing.allocated] at hk⟩

theorem State.endJob_sparesKept {j : RunningJob} {out : JobOutcome} {k : Option SlotNo} :
    s.SparesKept (s.endJob j out k) := by
  have h := State.startJob_sparesKept (s := s.setMaint { s.maint with
    run := none, completions := s.maint.completions ++ [j.completion out k] })
  exact h.congr rfl (by simp [State.endJob])

theorem State.endStep_sparesKept : s.SparesKept s.endStep := by
  have h := State.startJob_sparesKept (s := s.releaseMark.setPatrol s.patrol.advance)
  exact h.congr rfl rfl

theorem State.endRetireJob_sparesKept {r : ReadOutcome} {out : JobOutcome} {k : Option SlotNo} :
    s.SparesKept (s.endRetireJob r out k) := by
  unfold State.endRetireJob
  have hclear : s.SparesKept s.clearRetire.releaseMark :=
    State.clearRetire_sparesKept.trans (State.sparesKept_of_eq rfl)
  split
  · exact hclear.trans State.endJob_sparesKept
  · exact hclear

theorem State.patrolNoSpare_sparesKept {r : ReadResult} : s.SparesKept (s.patrolNoSpare r) := by
  unfold State.patrolNoSpare
  split
  · split
    · exact State.clearRetire_sparesKept.trans State.endStep_sparesKept
    · exact State.clearRetire_sparesKept.trans (State.sparesKept_of_eq rfl)
  · exact State.clearRetire_sparesKept

theorem State.retireNoSpare_sparesKept {op : RetireOp} {r : ReadResult} :
    s.SparesKept (s.retireNoSpare op r) := by
  have hflag : s.SparesKept s.raiseSparesExhausted := State.sparesKept_of_eq rfl
  unfold State.retireNoSpare
  split
  · exact hflag.trans State.endRetireJob_sparesKept
  · exact hflag.trans State.patrolNoSpare_sparesKept

theorem State.patrolAct_sparesKept {st : PatrolStep} {r : ReadResult} {n : Option (BitVec 8)} :
    s.SparesKept (s.patrolAct st r n) := by
  unfold State.patrolAct
  dsimp only
  split
  · split
    · exact ⟨rfl, rfl, fun k hk => by simp [Sparing.allocated] at hk⟩
    · exact State.sparesKept_of_eq rfl
  · exact State.endStep_sparesKept

/-- After the end of an operation nothing is allocated (R118). -/
theorem State.allocated_of_clearRetire (h : s.clearRetire.SparesKept t) :
    t.sparing.allocated = none := by
  cases ha : t.sparing.allocated with
  | none => rfl
  | some k =>
    have := h.allocated k ha
    simp [Sparing.allocated] at this

theorem State.retireDone_spares {op : RetireOp} {c : RetireCopy} :
    s.clearRetire.SparesKept (s.retireDone op c) := by
  have hmark : s.clearRetire.SparesKept s.clearRetire.releaseMark := State.sparesKept_of_eq rfl
  unfold State.retireDone State.endRetireJob
  split
  · split
    · exact hmark.trans State.endJob_sparesKept
    · exact hmark
  · exact State.endStep_sparesKept

/-- A report keeps the slot that a retire operation has allocated (R115). -/
theorem Sparing.allocated_report (sp : Sparing) (a : Addr) (d : Data) :
    ({ sp with retire := sp.retire.map (·.report a d) } : Sparing).allocated = sp.allocated := by
  unfold Sparing.allocated
  cases hr : sp.retire with
  | none => rfl
  | some op =>
    simp only [Option.map_some]
    rcases op.report_phase a d with ⟨h, h'⟩ | ⟨c, c', h, h', he⟩
    · simp [h, h']
    · simp [h, h', he]

theorem State.reportHostWrite_sparesKept {a : Addr} {d : Data} :
    s.SparesKept (s.reportHostWrite a d) := by
  have hreport : s.SparesKept
      (s.setSparing { s.sparing with retire := s.sparing.retire.map (·.report a d) }) :=
    ⟨rfl, rfl, fun k hk => by rwa [State.setSparing_sparing, Sparing.allocated_report] at hk⟩
  unfold State.reportHostWrite
  rcases (s.setSparing _).cancelStep_cases a with ⟨he, -⟩ | ⟨st, -, -, ⟨-, he⟩ | ⟨-, -, he⟩⟩ <;>
    rw [he]
  · exact hreport
  · exact hreport.trans (State.sparesKept_of_eq rfl)
  · refine State.SparesKept.trans ?_ State.endStep_sparesKept
    exact hreport.congr rfl rfl

/-- A write through a main address clears a poison flag at most (R2). -/
theorem Sparing.wf_slotsAfterWrite {sp : Sparing} (h : sp.wf) (p : Place) :
    ({ sp with slots := sp.slotsAfterWrite p } : Sparing).wf := by
  rw [Sparing.wf_iff] at h ⊢
  obtain ⟨hm, hf⟩ := h
  have hstate : ∀ k : SlotNo, (sp.slotsAfterWrite p)[k].state = sp.slots[k].state := fun k => by
    rw [Sparing.slotsAfterWrite_get]
    split <;> rfl
  refine ⟨Sparing.mapWf_of_slots hm rfl hstate fun k hk => ?_, fun k hk => ?_⟩
  · rw [Sparing.slotsAfterWrite_get] at hk
    split at hk
    · cases hk
    · exact hk
  · exact (hstate k).trans (hf k hk)

theorem State.Grant.sparing_wf (hg : s.Grant t) (h : s.sparing.wf) : t.sparing.wf := by
  cases hg with
  | taken p => exact Sparing.wf_slotsAfterWrite h _
  | maintWrite tag a d => exact Sparing.wf_slotsAfterWrite h _
  | reported p =>
    exact (State.reportHostWrite_sparesKept (s := s.takenWrite p)).wf
      (Sparing.wf_slotsAfterWrite h _)
  | _ => exact h

theorem Sparing.cleared_mapWf (sp : Sparing) : sp.cleared.mapWf := by
  have hmap : ∀ i : Fin 16, sp.cleared.map[i] = none := fun i => by
    simp [Sparing.cleared, State.reset]
  have hslot : ∀ k : SlotNo, sp.cleared.slots[k] = ⟨.free, false⟩ := fun k => by
    simp [Sparing.cleared, State.reset]
  refine ⟨fun i j e f hi => ?_, fun i j e f hi => ?_, fun k => ?_, fun k hk => ?_⟩
  · rw [hmap] at hi; cases hi
  · rw [hmap] at hi; cases hi
  · rw [hslot]
    exact ⟨fun h => (by cases h), fun ⟨i, e, hi, _⟩ => by rw [hmap] at hi; cases hi⟩
  · rw [hslot] at hk; cases hk

theorem Sparing.cleared_wf (sp : Sparing) : sp.cleared.wf :=
  Sparing.wf_iff.2 ⟨sp.cleared_mapWf, fun k _ => by simp [Sparing.cleared, State.reset]⟩

theorem Sparing.free_of_lowestFree {sp : Sparing} {k : SlotNo} (h : sp.lowestFree = some k) :
    sp.slots[k].state = .free := by
  simpa using List.find?_some h

theorem State.Quiet.sparing_wf (h : s.Quiet o t) (hs : s.sparing.wf) : t.sparing.wf := by
  have hreset : State.reset.sparing.wf := Sparing.cleared_wf State.reset.sparing
  cases h with
  | pinReset => exact hreset
  | powerOn => exact hreset
  | release => exact Sparing.cleared_wf _
  | linkTimeout => simpa using hs
  | _ => exact hs

theorem State.Active.sparing_wf (h : s.Active o v) (hs : s.sparing.wf) : v.sparing.wf := by
  have hfiled : ∀ f, (s.setAccess none).Filed f → f.sparing = s.sparing := fun f hf => by
    obtain ⟨-, -, -, -, hsp, -⟩ := hf.frame
    exact hsp
  cases h with
  | drained r i ch b g q ha he hq =>
    refine (State.sparesKept_of_eq ?_ : s.SparesKept _).wf hs
    rcases hq with rfl | rfl <;> simp
  | wordEnd a c f j j' out ha hc hk hf =>
    exact State.endJob_sparesKept.wf (hfiled f hf ▸ hs)
  | wordNext a c f j j' ha hc hk hf => exact hfiled f hf ▸ hs
  | retireAlloc r f op c ha hop hf hk =>
    rw [Sparing.wf_iff] at hs ⊢
    obtain ⟨hm, -⟩ := hs
    rw [State.setSparing_sparing, hfiled f hf]
    refine ⟨Sparing.mapWf_of_slots hm rfl (fun _ => rfl) fun _ => id, fun k hk' => ?_⟩
    cases hk'
    exact Sparing.free_of_lowestFree hk
  | retireNoSpare r f op ha hop hf =>
    exact State.retireNoSpare_sparesKept.wf (hfiled f hf ▸ hs)
  | commit k op c ha hop hc =>
    rw [Sparing.wf_iff] at hs ⊢
    obtain ⟨hm, hfree⟩ := hs
    have hslot : s.sparing.slots[c.slot].state = .free :=
      hfree _ (by simp [Sparing.allocated, hop, hc])
    have hdone := State.retireDone_spares (s := (s.setAccess none).mapCommit op.address c) (op := op)
      (c := c)
    refine ⟨Sparing.mapWf_of_slots (Sparing.commit_mapWf (a := op.address) hm hslot) ?_ (fun k => ?_)
      fun k hk => ?_, fun k hk => ?_⟩
    · rw [hdone.map]; simp
    · rw [hdone.slots]; simp
    · rw [hdone.slots] at hk; simpa using hk
    · rw [State.allocated_of_clearRetire hdone] at hk; cases hk
  | patrolRead r f st n ha hst hf => exact State.patrolAct_sparesKept.wf (hfiled f hf ▸ hs)
  | writeBack k st => exact State.endStep_sparesKept.wf hs
  | job kind start count value hd ht hwf hx => exact State.startJob_sparesKept.wf hs
  | abort => split <;> simpa using hs
  | softReset =>
    exact (show s.SparesKept s.softReset from
      ⟨rfl, rfl, fun k hk => by simp [State.softReset, Sparing.allocated] at hk⟩).wf hs
  | _ => simpa [State.movePointer_eq, State.endTableRead_eq, State.postWrite_eq] using hs

/-- Settles O57: a write clears a flag at most, an allocation takes a FREE slot, and a commit makes of it
the one slot that the address names. -/
theorem stepKeepsMapAndSlotsInAgreement : Obligations.StepKeepsMapAndSlotsInAgreement := by
  unfold Obligations.StepKeepsMapAndSlotsInAgreement
  intro s t hs h
  exact step_keeps (P := fun s => s.sparing.wf) (fun s h => h) (fun s t _ _ hg => hg.sparing_wf)
    (fun o s t hq => hq.sparing_wf) (fun o s v hv => hv.sparing_wf) h hs

end

end Sys2Proof.Machine

namespace Sys2Proof.Machine

/-! PROOFS. The protected set (3.7) and the FILL ranges (8.6): what the set is made of, that no event but a
checked one brings an address into it, and that no protected word is written but by the patrol. -/

/-! ### What the protected set is made of (R44) -/

section
variable {s t v f : State} {o : Option Instr} {q r : AddrRange}

theorem State.mem_protectedRanges : q ∈ s.protectedRanges ↔
    (∃ c ∈ s.channels.toList, q ∈ c.protectedRanges) ∨
      (∃ sl ∈ s.link.queue, q ∈ sl.boundRanges) ∨ q ∈ s.engine.boundRanges := by
  simp only [State.protectedRanges, List.mem_append, List.mem_flatMap]

theorem State.channel_mem (ch : Chan) : s.channels[ch] ∈ s.channels.toList := by
  rw [Vector.mem_toList_iff]
  exact Vector.getElem_mem ch.isLt

theorem State.exists_channel {p : Context → Prop} :
    (∃ c ∈ s.channels.toList, p c) ↔ ∃ ch : Chan, p s.channels[ch] := by
  constructor
  · rintro ⟨c, hc, hp⟩
    obtain ⟨i, hi, rfl⟩ := List.getElem_of_mem hc
    exact ⟨⟨i, by simpa using hi⟩, by simpa using hp⟩
  · rintro ⟨ch, hp⟩
    exact ⟨_, State.channel_mem ch, hp⟩

theorem Slot.mem_boundRanges {sl : Slot} : q ∈ sl.boundRanges ↔
    ∃ x n, (sl.phase = .waiting x n ∨ sl.phase = .reading x n) ∧ q = n.bank.range := by
  unfold Slot.boundRanges
  cases sl.phase <;> simp

theorem Engine.mem_boundRanges {e : Engine} :
    q ∈ e.boundRanges ↔ ∃ ch b f, e = .draining ch b f ∧ q = b.range := by
  cases e <;> simp [Engine.boundRanges]

theorem Bank.has_range {b : Bank} {a : Nat} :
    b.range.has a = true ↔ b.base.toNat ≤ a ∧ a ≤ b.base.toNat + 2 ^ b.order.toNat :=
  decide_eq_true_iff

theorem State.isProtected_iff {a : Nat} :
    s.isProtected a = true ↔ ∃ q ∈ s.protectedRanges, q.has a = true := by
  simp only [State.isProtected, List.any_eq_true]

/-- Settles O15: the three lists of ranges, member by member. -/
theorem protectedSetIsTheUnion : Obligations.ProtectedSetIsTheUnion := by
  unfold Obligations.ProtectedSetIsTheUnion
  intro s a inBank
  have hactive : ∀ c : Context, c.active = match c.activeBank with
      | .a => c.bankA
      | .b => c.bankB := fun c => by cases h : c.activeBank <;> simp [Context.active, h, Context.bank]
  have hinactive : ∀ c : Context, c.inactive = match c.activeBank with
      | .a => c.bankB
      | .b => c.bankA := fun c => by
    cases h : c.activeBank <;> simp [Context.inactive, h, Context.bank, BankName.other]
  have hbank : ∀ b : Bank, b.range.has a = true ↔ inBank b := fun b => Bank.has_range
  rw [State.isProtected_iff]
  simp only [State.mem_protectedRanges, State.exists_channel, Context.mem_protectedRanges,
    Slot.mem_boundRanges, Engine.mem_boundRanges]
  constructor
  · rintro ⟨q, ⟨ch, ⟨hs, rfl⟩ | ⟨ha, rfl⟩⟩ | ⟨sl, hsl, x, n, hp, rfl⟩ | ⟨ch, b, f, he, rfl⟩, hq⟩ <;>
      rw [hbank] at hq
    · exact .inl ⟨ch, hs, Eq.mp (congrArg inBank (hactive _)) hq⟩
    · exact .inr (.inl ⟨ch, ha, Eq.mp (congrArg inBank (hinactive _)) hq⟩)
    · exact .inr (.inr (.inl ⟨sl, hsl, x, n, hp, hq⟩))
    · exact .inr (.inr (.inr ⟨ch, b, f, he, hq⟩))
  · rintro (⟨ch, hs, hq⟩ | ⟨ch, ha, hq⟩ | ⟨sl, hsl, x, n, hp, hq⟩ | ⟨ch, b, f, he, hq⟩)
    · exact ⟨_, .inl ⟨ch, .inl ⟨hs, rfl⟩⟩, (hbank _).2 (Eq.mpr (congrArg inBank (hactive _)) hq)⟩
    · exact ⟨_, .inl ⟨ch, .inr ⟨ha, rfl⟩⟩, (hbank _).2 (Eq.mpr (congrArg inBank (hinactive _)) hq)⟩
    · exact ⟨_, .inr (.inl ⟨sl, hsl, x, n, hp, rfl⟩), (hbank _).2 hq⟩
    · exact ⟨_, .inr (.inr ⟨ch, b, f, he, rfl⟩), (hbank _).2 hq⟩

/-! ### Events that bring nothing into the protected set -/

/-- Every range protected after the event was protected before it. -/
def State.ProtectsNoMore (s t : State) : Prop := ∀ q ∈ t.protectedRanges, q ∈ s.protectedRanges

theorem State.protectsNoMore_of_eq (hc : t.channels = s.channels)
    (hl : t.link.queue = s.link.queue) (he : t.engine = s.engine) : s.ProtectsNoMore t := by
  intro q hq
  rwa [← State.protectedRanges_congr hc hl he]

theorem State.ProtectsNoMore.trans {u : State} (h : s.ProtectsNoMore t) (h' : t.ProtectsNoMore u) :
    s.ProtectsNoMore u := fun q hq => h q (h' q hq)

/-- A suspension leaves a live channel live (R40). -/
theorem Context.countFaulty_ranges (c : Context) :
    c.countFaulty.protectedRanges = c.protectedRanges := by
  have hlive : c.countFaulty.live = c.live := by
    unfold Context.countFaulty Context.live
    dsimp only
    split
    · next h => rw [h.2.2]; rfl
    · rfl
  unfold Context.protectedRanges
  rw [hlive]
  rfl

/-- At a frame mark the armed bank becomes the active one, and the active one is released (R37). -/
theorem Context.commit_ranges (c : Context) (n : BitVec 16) :
    ∀ q ∈ (c.commit n).protectedRanges, q ∈ c.protectedRanges := by
  intro q hq
  unfold Context.commit at hq
  split at hq
  · next ha =>
    rw [Context.mem_protectedRanges] at hq ⊢
    rcases hq with ⟨-, rfl⟩ | ⟨hn, -⟩
    · exact .inr ⟨ha, rfl⟩
    · cases hn
  · exact hq

theorem State.protectsNoMore_setChan {ch : Chan} {c : Context}
    (hc : c.protectedRanges = s.channels[ch].protectedRanges)
    (hch : t.channels = s.channels.set ch c) (hl : t.link.queue = s.link.queue)
    (he : t.engine = s.engine) : s.ProtectsNoMore t := by
  intro q hq
  rw [State.mem_protectedRanges, hl, he, hch] at hq
  rw [State.mem_protectedRanges]
  rcases hq with ⟨c', hc', hq⟩ | hq
  · rw [Vector.toList_set] at hc'
    rcases List.mem_or_eq_of_mem_set hc' with hc' | rfl
    · exact .inl ⟨c', hc', hq⟩
    · exact .inl ⟨_, State.channel_mem ch, hc ▸ hq⟩
  · exact .inr hq

theorem State.reportFaulty_protectsNoMore (ch : Chan) : s.ProtectsNoMore (s.reportFaulty ch) :=
  State.protectsNoMore_setChan (ch := ch) (Context.countFaulty_ranges s.channels[ch])
    (by simp only [State.reportFaulty_frame]) (by simp) (by simp)

theorem State.report_protectsNoMore (ch : Chan) (p : Progress) (r : Response) :
    s.ProtectsNoMore (s.report ch p r) := by
  unfold State.report
  split
  · exact State.reportFaulty_protectsNoMore ch
  · exact State.protectsNoMore_setChan (c := { s.channels[ch] with lastGood := r.result }) rfl rfl
      rfl rfl

theorem State.Filed.protectsNoMore (h : s.Filed f) : s.ProtectsNoMore f := by
  obtain ⟨-, hc, hl, he, -⟩ := h.frame
  exact State.protectsNoMore_of_eq hc (congrArg Link.queue hl) he

/-- Slots leave the queue, or lose their bound range, and the engine holds no more than before. -/
theorem State.protectsNoMore_of_queue (hc : t.channels = s.channels)
    (hl : ∀ sl ∈ t.link.queue, ∀ q ∈ sl.boundRanges, q ∈ s.protectedRanges)
    (he : ∀ q ∈ t.engine.boundRanges, q ∈ s.protectedRanges) : s.ProtectsNoMore t := by
  intro q hq
  rw [State.mem_protectedRanges, hc] at hq
  rcases hq with hq | ⟨sl, hsl, hq⟩ | hq
  · exact State.mem_protectedRanges.2 (.inl hq)
  · exact hl sl hsl q hq
  · exact he q hq

theorem State.bound_mem {sl : Slot} (h : sl ∈ s.link.queue) (hq : q ∈ sl.boundRanges) :
    q ∈ s.protectedRanges := State.mem_protectedRanges.2 (.inr (.inl ⟨sl, h, hq⟩))

/-- A slot that is taken stays bound (R44, R69). -/
theorem State.takeSlot_protectsNoMore : s.ProtectsNoMore s.takeSlot := by
  rcases s.takeSlot_cases with h | ⟨pre, sl, post, d, n, -, hq, -, hs, h⟩
  · rw [h]; exact fun q hq => hq
  · rw [h]
    refine State.protectsNoMore_of_queue rfl (fun x hx q hr => ?_) (by simp [Engine.boundRanges])
    simp only [List.mem_append, List.mem_cons] at hx
    rcases hx with hx | rfl | hx
    · exact State.bound_mem (by rw [hq]; simp [hx]) hr
    · refine State.bound_mem (sl := sl) (by rw [hq]; simp) ?_
      simpa [Slot.boundRanges, hs] using hr
    · exact State.bound_mem (by rw [hq]; simp [hx]) hr

theorem finishReading_bound {l : List Slot} {p : Response} {sl : Slot}
    (h : sl ∈ finishReading p l) (hq : q ∈ sl.boundRanges) : sl ∈ l := by
  induction l with
  | nil => simp [finishReading] at h
  | cons x rest ih =>
    unfold finishReading at h
    split at h <;> rcases List.mem_cons.1 h with rfl | h
    · simp [Slot.boundRanges] at hq
    · exact List.mem_cons_of_mem _ h
    · exact List.mem_cons_self
    · exact List.mem_cons_of_mem _ (ih h)

theorem State.completeLookup_protectsNoMore (ch : Chan) (n : Snapshot) (p : Progress) (y : Int) :
    s.ProtectsNoMore (s.completeLookup ch n p y) := by
  unfold State.completeLookup
  dsimp only
  generalize lookupResponse n p y s.channels[ch].lastGood = r
  refine ((State.report_protectsNoMore ch p r).trans ?_).trans State.takeSlot_protectsNoMore
  refine State.protectsNoMore_of_queue rfl (fun x hx q hq => ?_) (by simp [Engine.boundRanges])
  simp only [State.setLink_link, Link.refreshOffer_frame] at hx
  exact State.bound_mem (by simpa using finishReading_bound hx hq) hq

/-- An engine that a reset leaves draining had its bank bound (R44, R86). -/
theorem State.dropEngine_bound (h : q ∈ s.dropEngine.boundRanges) : q ∈ s.protectedRanges := by
  have hreading : ∀ ch n, readingSlot s.link.queue = some (ch, n) → n.bank.range ∈ s.protectedRanges :=
    fun ch n hr => by
      obtain ⟨pre, sl, post, d, hq, -, hs, -⟩ := readingSlot_eq_some hr
      exact State.bound_mem (sl := sl) (by rw [hq]; simp) (by simp [Slot.boundRanges, hs])
  unfold State.dropEngine at h
  split at h
  · next hr =>
    split at h
    · rw [List.mem_singleton.1 h]; exact hreading _ _ hr
    · cases h
  · next hr =>
    split at h
    · rw [List.mem_singleton.1 h]; exact hreading _ _ hr
    · cases h
  · next he => exact State.mem_protectedRanges.2 (.inr (.inr (by rw [he]; exact h)))
  · cases h

/-- A slot at the tail brings in nothing that is not protected already. -/
theorem State.pushSlot_protectsNoMore {w : BitVec 29} {p : SlotPhase}
    (h : ∀ q ∈ (requestSlot w p).boundRanges, q ∈ s.protectedRanges) :
    s.ProtectsNoMore (s.pushSlot w p) := by
  refine State.protectsNoMore_of_queue (by simp) (fun x hx q hq => ?_) fun q hq =>
    State.mem_protectedRanges.2 (.inr (.inr (by simpa using hq)))
  simp only [State.pushSlot_queue, List.mem_append, List.mem_singleton] at hx
  rcases hx with hx | rfl
  · exact State.bound_mem hx hq
  · exact h q hq

/-- The bank that a LOOKUP on an ACTIVE channel binds is that channel's active bank (R58). -/
theorem State.bind_protectsNoMore (w : BitVec 29)
    (h : s.channels[requestChannel w].state = .active) :
    s.ProtectsNoMore (s.pushSlot w
      (.waiting (requestSample w) s.channels[requestChannel w].snapshot)) := by
  refine State.pushSlot_protectsNoMore fun q hq => ?_
  simp only [requestSlot, Slot.boundRanges, List.mem_singleton] at hq
  refine State.mem_protectedRanges.2 (.inl ⟨_, State.channel_mem (requestChannel w), ?_⟩)
  rw [Context.mem_protectedRanges]
  exact .inl ⟨fun hd => ChanState.noConfusion (h.symm.trans hd), hq⟩

theorem State.acceptFrame_protectsNoMore (w : BitVec 29) : s.ProtectsNoMore (s.acceptFrame w) := by
  intro q hq
  rw [State.mem_protectedRanges] at hq ⊢
  simp only [State.acceptFrame_frame, Vector.toList_map, List.mem_map, List.mem_append,
    List.mem_singleton] at hq
  rcases hq with ⟨_, ⟨c, hc, rfl⟩, hq⟩ | ⟨sl, hsl | rfl, hq⟩ | hq
  · exact .inl ⟨c, hc, c.commit_ranges _ q hq⟩
  · exact .inr (.inl ⟨sl, hsl, hq⟩)
  · simp [requestSlot, acceptanceResponse, Slot.boundRanges] at hq
  · exact .inr (.inr hq)

theorem State.discardSlots_protectsNoMore (l : Link) (hl : l.queue = []) :
    s.ProtectsNoMore (s.discardSlots.setLink l) := by
  intro q hq
  rw [State.mem_protectedRanges] at hq
  rcases hq with ⟨c, hc, hq⟩ | ⟨sl, hsl, -⟩ | hq
  · have hreport : s.ProtectsNoMore s.reportDiscard := by
      rcases State.reportDiscard_cases (s := s) with h | ⟨ch, h⟩ <;> rw [h]
      · exact fun q hq => hq
      · exact State.reportFaulty_protectsNoMore ch
    exact hreport q (State.mem_protectedRanges.2 (.inl ⟨c, hc, hq⟩))
  · simp [hl] at hsl
  · exact State.dropEngine_bound (by simpa using hq)

theorem State.softReset_protectsNoMore : s.ProtectsNoMore s.softReset := by
  intro q hq
  rw [State.mem_protectedRanges] at hq
  rcases hq with ⟨c, hc, hq⟩ | ⟨sl, hsl, -⟩ | hq
  · simp only [State.softReset, Vector.toList_map, List.mem_map] at hc
    obtain ⟨c', -, rfl⟩ := hc
    simp [Context.afterSoftReset, Context.protectedRanges, Context.live] at hq
  · simp [State.softReset] at hsl
  · exact State.dropEngine_bound hq

theorem State.reset_protects_nothing (u : State) (hc : u.channels = State.reset.channels)
    (hl : u.link.queue = []) (he : u.engine = .idle) : u.protectedRanges = [] := by
  have hchan : ∀ c ∈ State.reset.channels.toList, c.protectedRanges = [] := fun c hc => by
    rw [List.eq_of_mem_replicate (by simpa [State.reset] using hc : c ∈ List.replicate 16 _)]
    rfl
  simp only [State.protectedRanges, hc, hl, he, List.flatMap_eq_nil_iff.2 hchan,
    Engine.boundRanges, List.flatMap_nil, List.append_nil]

/-! ### The FILL ranges (R36, R138) -/

theorem Maint.mem_live {m : Maint} {j : Job} :
    j ∈ m.live ↔ (∃ k, m.run = some k ∧ k.job = j) ∨ j ∈ m.queue := by
  simp only [Maint.live, List.mem_append, Option.mem_toList, Option.map_eq_some_iff]

theorem Maint.mem_fillRanges {m : Maint} :
    r ∈ m.fillRanges ↔ ∃ j ∈ m.live, j.kind = .fill ∧ j.range = r := by
  simp only [Maint.fillRanges, List.mem_map, List.mem_filter, beq_iff_eq, and_assoc]

/-- Every job queued or running after the event was so before it. -/
def State.JobsNoMore (s t : State) : Prop := ∀ j ∈ t.maint.live, j ∈ s.maint.live

theorem State.jobsNoMore_of_eq (h : t.maint = s.maint) : s.JobsNoMore t := fun _ hj => h ▸ hj

theorem State.JobsNoMore.trans {u : State} (h : s.JobsNoMore t) (h' : t.JobsNoMore u) :
    s.JobsNoMore u := fun j hj => h j (h' j hj)

theorem State.startJob_jobsNoMore : s.JobsNoMore s.startJob := by
  intro j hj
  rcases s.startJob_cases with he | ⟨k, rest, -, -, hq, he⟩ <;> rw [he] at hj
  · exact hj
  · rw [Maint.mem_live] at hj ⊢
    refine .inr ?_
    rw [hq]
    rcases hj with ⟨x, hx, rfl⟩ | hj
    · cases hx
      exact List.mem_cons_self
    · exact List.mem_cons_of_mem _ hj

theorem State.endJob_jobsNoMore {j : RunningJob} {out : JobOutcome} {k : Option SlotNo} :
    s.JobsNoMore (s.endJob j out k) := by
  have hended : s.JobsNoMore (s.setMaint { s.maint with
      run := none, completions := s.maint.completions ++ [j.completion out k] }) := fun j hj => by
    rw [Maint.mem_live] at hj ⊢
    rcases hj with ⟨x, hx, -⟩ | hj
    · cases hx
    · exact .inr hj
  exact (hended.trans State.startJob_jobsNoMore).trans
    (State.jobsNoMore_of_eq (by simp [State.endJob]))

theorem State.endStep_jobsNoMore : s.JobsNoMore s.endStep :=
  State.startJob_jobsNoMore (s := s.releaseMark.setPatrol s.patrol.advance)

theorem State.endRetireJob_jobsNoMore {x : ReadOutcome} {out : JobOutcome} {k : Option SlotNo} :
    s.JobsNoMore (s.endRetireJob x out k) := by
  unfold State.endRetireJob
  split
  · exact State.endJob_jobsNoMore (s := s.clearRetire.releaseMark)
  · exact State.jobsNoMore_of_eq rfl

theorem State.retireNoSpare_jobsNoMore {op : RetireOp} {x : ReadResult} :
    s.JobsNoMore (s.retireNoSpare op x) := by
  unfold State.retireNoSpare State.patrolNoSpare
  split
  · exact State.endRetireJob_jobsNoMore (s := s.raiseSparesExhausted)
  · split
    · split
      · exact State.endStep_jobsNoMore (s := s.raiseSparesExhausted.clearRetire)
      · exact State.jobsNoMore_of_eq rfl
    · exact State.jobsNoMore_of_eq rfl

theorem State.patrolAct_jobsNoMore {st : PatrolStep} {x : ReadResult} {n : Option (BitVec 8)} :
    s.JobsNoMore (s.patrolAct st x n) := by
  unfold State.patrolAct
  dsimp only
  split
  · split <;> exact State.jobsNoMore_of_eq rfl
  · exact State.endStep_jobsNoMore

theorem State.retireDone_jobsNoMore {op : RetireOp} {c : RetireCopy} :
    s.JobsNoMore (s.retireDone op c) := by
  unfold State.retireDone
  split
  · exact State.endRetireJob_jobsNoMore
  · exact State.endStep_jobsNoMore (s := s.clearRetire)

theorem State.reportHostWrite_jobsNoMore {a : Addr} {d : Data} :
    s.JobsNoMore (s.reportHostWrite a d) := by
  unfold State.reportHostWrite
  rcases (s.setSparing _).cancelStep_cases a with ⟨he, -⟩ | ⟨st, -, -, ⟨-, he⟩ | ⟨-, -, he⟩⟩ <;>
    rw [he]
  · exact State.jobsNoMore_of_eq rfl
  · exact State.jobsNoMore_of_eq rfl
  · refine State.JobsNoMore.trans ?_ State.endStep_jobsNoMore
    exact State.jobsNoMore_of_eq rfl

/-- A job that goes on keeps its place. -/
theorem State.setRun_jobsNoMore {j j' : RunningJob} (hj : s.maint.run = some j)
    (hj' : j'.job = j.job) : s.JobsNoMore (s.setMaint { s.maint with run := some j' }) := by
  intro k hk
  rw [Maint.mem_live] at hk ⊢
  rcases hk with ⟨x, hx, rfl⟩ | hk
  · cases hx
    exact .inl ⟨j, hj, hj'.symm⟩
  · exact .inr hk

theorem State.abort_jobsNoMore (l : List Completion) : s.JobsNoMore (s.setMaint { s.maint with
    queue := [], run := s.abortRunning.1, completions := l }) := by
  intro k hk
  rw [Maint.mem_live] at hk ⊢
  rcases hk with ⟨x, hx, rfl⟩ | hk
  · simp only [State.setMaint_maint] at hx
    rcases State.abortRunning_cases (s := s) with
      ⟨-, he⟩ | ⟨j, hr, ⟨-, he⟩ | ⟨-, ⟨-, he⟩ | ⟨-, he⟩⟩⟩ <;> rw [he] at hx <;> cases hx
    · exact .inl ⟨_, hr, rfl⟩
    · exact .inl ⟨_, hr, rfl⟩
  · cases hk

/-! ### No word of a FILL range comes into the protected set -/

theorem AddrRange.overlaps_comm (q r : AddrRange) : q.overlaps r = r.overlaps q := by
  simp only [AddrRange.overlaps, and_comm]

theorem State.rangeProtected_eq_false :
    s.rangeProtected r = false ↔ ∀ q ∈ s.protectedRanges, q.overlaps r = false := by
  simp only [State.rangeProtected, List.any_eq_false, Bool.not_eq_true]

theorem State.fillsUnprotected_of_noMore (h : s.fillsUnprotected) (hp : s.ProtectsNoMore t)
    (hj : s.JobsNoMore t) : t.fillsUnprotected := by
  intro r hr
  obtain ⟨j, hlive, hk⟩ := Maint.mem_fillRanges.1 hr
  have hrange := h r (Maint.mem_fillRanges.2 ⟨j, hj j hlive, hk⟩)
  rw [State.rangeProtected_eq_false] at hrange ⊢
  exact fun q hq => hrange q (hp q hq)

theorem State.Grant.jobsNoMore (hg : s.Grant t) : s.JobsNoMore t := by
  cases hg with
  | reported p => exact State.reportHostWrite_jobsNoMore (s := s.takenWrite p)
  | _ => exact State.jobsNoMore_of_eq rfl

theorem State.Grant.fillsUnprotected (hg : s.Grant t) (h : s.fillsUnprotected) :
    t.fillsUnprotected := by
  obtain ⟨hc, hl, he, -⟩ := hg.frame
  exact State.fillsUnprotected_of_noMore h
    (State.protectsNoMore_of_eq hc (congrArg Link.queue hl) he) hg.jobsNoMore

theorem State.fillsUnprotected_of_idle (h : t.protectedRanges = []) : t.fillsUnprotected :=
  fun r _ => State.rangeProtected_eq_false.2 fun q hq => by rw [h] at hq; cases hq

theorem State.Quiet.fillsUnprotected (h : s.Quiet o t) (hs : s.fillsUnprotected) :
    t.fillsUnprotected := by
  cases h with
  | pinReset => exact State.fillsUnprotected_of_idle (State.reset_protects_nothing _ rfl rfl rfl)
  | powerOn => exact State.fillsUnprotected_of_idle (State.reset_protects_nothing _ rfl rfl rfl)
  | delivery sl rest w hq hd =>
    refine State.fillsUnprotected_of_noMore hs (State.protectsNoMore_of_queue rfl
      (fun x hx q hr => State.bound_mem ?_ hr)
      fun q hr => State.mem_protectedRanges.2 (.inr (.inr hr))) (State.jobsNoMore_of_eq rfl)
    rw [hq]
    exact List.mem_cons_of_mem _ (by simpa using hx)
  | channel ch c h hp hw =>
    intro r hr
    have hold := State.rangeProtected_eq_false.1 (hs r hr)
    rw [State.rangeProtected_eq_false]
    intro q hq
    rw [State.mem_protectedRanges] at hq
    rcases hq with ⟨c', hc', hq⟩ | hq
    · rw [Vector.toList_set] at hc'
      rcases List.mem_or_eq_of_mem_set hc' with hc' | rfl
      · exact hold q (State.mem_protectedRanges.2 (.inl ⟨c', hc', hq⟩))
      · rcases hw.ranges q hq with hq | hq
        · exact hold q (State.mem_protectedRanges.2 (.inl ⟨_, State.channel_mem ch, hq⟩))
        · rw [AddrRange.overlaps_comm]
          simp only [Maint.fillOverlaps, List.any_eq_false, Bool.not_eq_true] at hq
          exact hq r hr
    · exact hold q (State.mem_protectedRanges.2 (.inr hq))
  | popCompletion r rest h hp hr =>
    exact State.fillsUnprotected_of_noMore hs (State.protectsNoMore_of_eq rfl rfl rfl) fun j hj => hj
  | args => exact hs
  | linkTimeout =>
    exact State.fillsUnprotected_of_noMore hs
      (State.protectsNoMore_of_eq (by simp) (by simp) (by simp)) (State.jobsNoMore_of_eq (by simp))
  | _ => exact hs

theorem State.Active.protectsNoMore (h : s.Active o v) : s.ProtectsNoMore v := by
  have hfiled : ∀ f, (s.setAccess none).Filed f → s.ProtectsNoMore f := fun f hf => hf.protectsNoMore
  have hsame : ∀ {u w : State}, s.ProtectsNoMore u → w.channels = u.channels → w.link = u.link →
      w.engine = u.engine → s.ProtectsNoMore w := fun hu hc hl he =>
    hu.trans (State.protectsNoMore_of_eq hc (congrArg Link.queue hl) he)
  cases h with
  | answered w r h =>
    exact State.pushSlot_protectsNoMore (s := { s with host := h }) fun q hq => by
      simp [requestSlot, Slot.boundRanges] at hq
  | frame w => exact State.acceptFrame_protectsNoMore w
  | bind w hl hc => exact (State.bind_protectsNoMore w hc).trans State.takeSlot_protectsNoMore
  | linkReset => exact State.discardSlots_protectsNoMore _ (by simp)
  | firstRead r i p ch n =>
    refine (hfiled _ (State.fileRead_filed r .lookup (some ch))).trans ?_
    exact State.protectsNoMore_of_queue rfl (fun x hx q hq => State.bound_mem hx hq)
      (by simp [Engine.boundRanges])
  | lastRead r i p ch n y =>
    exact (hfiled _ (State.fileRead_filed r .lookup (some ch))).trans
      (State.completeLookup_protectsNoMore ch n p y)
  | drained r i ch b g q ha he hq =>
    have hidle : s.ProtectsNoMore ((s.setAccess none).setEngine .idle) :=
      State.protectsNoMore_of_queue rfl (fun x hx q hq => State.bound_mem hx hq)
        (by simp [Engine.boundRanges])
    refine State.ProtectsNoMore.trans ?_ State.takeSlot_protectsNoMore
    rcases hq with rfl | rfl
    · exact hidle
    · refine hidle.trans ?_
      rcases State.drainStale_cases (s := (s.setAccess none).setEngine .idle) r ch g with
        h | ⟨f, h, hf⟩
      · exact h.protectsNoMore
      · rw [hf]
        exact h.protectsNoMore.trans (State.reportFaulty_protectsNoMore ch)
  | wordEnd a c f j j' out ha hc hk hf => exact hsame (hfiled f hf) (by simp) (by simp) (by simp)
  | wordNext a c f j j' ha hc hk hf => exact hsame (hfiled f hf) rfl rfl rfl
  | retireAlloc r f op c ha hop hf => exact hsame (hfiled f hf) rfl rfl rfl
  | retireNoSpare r f op ha hop hf => exact hsame (hfiled f hf) (by simp) (by simp) (by simp)
  | patrolRead r f st n ha hst hf => exact hsame (hfiled f hf) (by simp) (by simp) (by simp)
  | softReset => exact State.softReset_protectsNoMore
  | abort => split <;> exact State.protectsNoMore_of_eq (by simp) (by simp) (by simp)
  | _ =>
    exact State.protectsNoMore_of_eq
      (by simp [State.movePointer_eq, State.endTableRead_eq, State.postWrite_eq])
      (by simp [State.movePointer_eq, State.endTableRead_eq, State.postWrite_eq])
      (by simp [State.movePointer_eq, State.endTableRead_eq, State.postWrite_eq])

/-- Before the arbiter's turn a job is new only if it has been accepted, a FILL past the protected set. -/
theorem State.Active.jobsNoMore (h : s.Active o v) : s.JobsNoMore v ∨
    ∃ j : Job, (j.kind = .fill → s.rangeProtected j.range = false) ∧
      ∀ k ∈ v.maint.live, k = j ∨ k ∈ s.maint.live := by
  have hfiled : ∀ f, (s.setAccess none).Filed f → f.maint = s.maint := fun f hf => by
    obtain ⟨-, -, -, -, -, hm, -⟩ := hf.frame
    exact hm
  have hjobs : ∀ f, (s.setAccess none).Filed f → s.JobsNoMore f := fun f hf =>
    State.jobsNoMore_of_eq (hfiled f hf)
  cases h with
  | job kind start count value hd ht hwf hx =>
    refine .inr ⟨⟨kind, s.maint.nextId, start, count, value⟩, hx, fun k hk => ?_⟩
    have hk' := State.startJob_jobsNoMore
      (s := (s.setMaint (s.maint.accept kind start count value)).setPatrol s.patrol.yieldToJob) k hk
    rw [Maint.mem_live] at hk' ⊢
    simp only [State.setPatrol_maint, State.setMaint_maint, Maint.accept, List.mem_append,
      List.mem_singleton] at hk'
    rcases hk' with h | h | rfl
    · exact .inr (.inl h)
    · exact .inr (.inr h)
    · exact .inl rfl
  | drained r i ch b g q ha he hq =>
    refine .inl (State.jobsNoMore_of_eq ?_)
    rcases hq with rfl | rfl <;> simp
  | wordEnd a c f j j' out ha hc hk hf =>
    exact .inl ((hjobs f hf).trans State.endJob_jobsNoMore)
  | wordNext a c f j j' ha hc hk hf hj hj' =>
    exact .inl ((hjobs f hf).trans (State.setRun_jobsNoMore (hfiled f hf ▸ hj) hj'))
  | retireAlloc r f op c ha hop hf => exact .inl (hjobs f hf)
  | retireNoSpare r f op ha hop hf =>
    exact .inl ((hjobs f hf).trans State.retireNoSpare_jobsNoMore)
  | commit k op c =>
    refine .inl (State.JobsNoMore.trans ?_ State.retireDone_jobsNoMore)
    exact State.jobsNoMore_of_eq (by simp)
  | patrolRead r f st n ha hst hf => exact .inl ((hjobs f hf).trans State.patrolAct_jobsNoMore)
  | writeBack k st => exact .inl (State.endStep_jobsNoMore (s := s.setAccess none))
  | abort hd =>
    refine .inl ((State.abort_jobsNoMore (s.maint.completions ++ s.abortRunning.2 ++
      s.maint.queue.map Job.abortedRecord)).trans (State.jobsNoMore_of_eq ?_))
    split <;> simp
  | softReset =>
    exact .inl fun j hj => by simp [State.softReset, Maint.afterSoftReset, Maint.live] at hj
  | _ =>
    exact .inl (State.jobsNoMore_of_eq
      (by simp [State.movePointer_eq, State.endTableRead_eq, State.postWrite_eq]))

theorem State.Active.fillsUnprotected (h : s.Active o v) (hs : s.fillsUnprotected) :
    v.fillsUnprotected := by
  rcases h.jobsNoMore with hj | ⟨j, hx, hj⟩
  · exact State.fillsUnprotected_of_noMore hs h.protectsNoMore hj
  · intro r hr
    obtain ⟨k, hk, hfill, rfl⟩ := Maint.mem_fillRanges.1 hr
    have hrange : s.rangeProtected k.range = false := by
      rcases hj k hk with rfl | hk
      · exact hx hfill
      · exact hs _ (Maint.mem_fillRanges.2 ⟨k, hk, hfill, rfl⟩)
    rw [State.rangeProtected_eq_false] at hrange ⊢
    exact fun q hq => hrange q (h.protectsNoMore q hq)

/-- Settles O59: a range comes into the protected set by a checked ENABLE or ARM alone, and a job into the
queue by its own check. -/
theorem stepKeepsFillRangesUnprotected : Obligations.StepKeepsFillRangesUnprotected := by
  unfold Obligations.StepKeepsFillRangesUnprotected
  intro s t hs h
  exact step_keeps (P := State.fillsUnprotected) (fun s h => h)
    (fun s t _ _ hg => hg.fillsUnprotected) (fun o s t hq => hq.fillsUnprotected)
    (fun o s v hv => hv.fillsUnprotected) h hs

/-! ### The words that a protected address reaches (R44, R164) -/

/-- Two addresses that reach one word are one address. -/
theorem State.resolve_injective (h : s.sparing.wf) {a b : Addr} (hab : s.resolve a = s.resolve b) :
    a = b := by
  rw [Sparing.wf_iff] at h
  obtain ⟨⟨haddr, hslot, -, -⟩, -⟩ := h
  unfold State.resolve at hab
  split at hab <;> split at hab
  · next _ k hk _ k' hk' =>
    cases hab
    obtain ⟨i, hi⟩ := (mapLookup_eq_some_iff haddr).1 hk
    obtain ⟨j, hj⟩ := (mapLookup_eq_some_iff haddr).1 hk'
    obtain rfl := hslot i j _ _ hi hj rfl
    cases hi.symm.trans hj
    rfl
  · cases hab
  · cases hab
  · exact Place.main.inj hab

/-- A slot that an address reaches is MAPPED. -/
theorem State.mapped_of_resolve (h : s.sparing.wf) {a : Addr} {k : SlotNo}
    (hk : s.resolve a = .spare k) : s.sparing.slots[k].state = .mapped := by
  rw [Sparing.wf_iff] at h
  obtain ⟨⟨haddr, -, hmapped, -⟩, -⟩ := h
  unfold State.resolve at hk
  split at hk
  · next j hj =>
    cases hk
    obtain ⟨i, hi⟩ := (mapLookup_eq_some_iff haddr).1 hj
    exact (hmapped k).2 ⟨i, _, hi, rfl⟩
  · cases hk

/-- The next word of a running FILL is not protected (R128, R138). -/
theorem State.nextWord_unprotected {j : RunningJob} (hf : s.fillsUnprotected)
    (hw : s.maint.jobsWf) (hj : s.maint.run = some j) (hk : j.job.kind = .fill) :
    s.isProtected j.next.toNat = false := by
  obtain ⟨-, hrun⟩ := hw
  obtain ⟨⟨hcount, hend⟩, hdone⟩ := hrun j hj
  have hrange := hf _ (Maint.mem_fillRanges.2 ⟨j.job, Maint.mem_live.2 (.inl ⟨j, hj, rfl⟩), hk, rfl⟩)
  have hnext : j.next.toNat = j.job.start.toNat + j.wordsDone :=
    Nat.mod_eq_of_lt (by omega)
  rw [Bool.eq_false_iff] at hrange ⊢
  intro hp
  refine hrange ((State.rangeProtected_span hcount).2 ⟨_, ?_, ?_, hp⟩) <;> omega

/-- A grant stores in the word that a protected address reaches only the patrol's write-back. -/
theorem State.Grant.protected_word (hg : s.Grant t) {a : Addr} (hm : memCanonical s.store.mem)
    (hwf : s.sparing.wf) (hf : s.fillsUnprotected) (hj : s.maint.jobsWf)
    (ha : s.isProtected a.toNat = true) :
    t.word (s.resolve a) = s.word (s.resolve a) ∨
      t.store.access = some (.write .writeBack (some (s.resolve a).key) .wanted) := by
  have hother : ∀ {tag p d}, s.StoresAt t tag p d → p ≠ s.resolve a →
      t.word (s.resolve a) = s.word (s.resolve a) := fun hst hp => by
    rw [hst.word hm, if_neg hp.symm]
  have hunprotected : ∀ {b : Addr}, s.isProtected b.toNat = false → s.resolve b ≠ s.resolve a :=
    fun hb he => by rw [State.resolve_injective hwf he, ha] at hb; cases hb
  cases hg with
  | taken p hc hp hx => exact .inl (hother ⟨rfl, rfl⟩ (hunprotected hx))
  | reported p hc hp hx =>
    exact .inl (hother (tag := .posted) (d := p.data)
      ⟨by simp [State.takenWrite], by simp [State.takenWrite]⟩ (hunprotected hx))
  | maintWrite tag b d hgr hw =>
    cases hw with
    | fillWord j hop hjr hk => exact .inl (hother ⟨rfl, rfl⟩
        (hunprotected (State.nextWord_unprotected hf hj hjr hk)))
    | writeBack st =>
      by_cases hb : s.resolve st.address = s.resolve a
      · exact .inr (by rw [← hb]; rfl)
      · exact .inl (hother ⟨rfl, rfl⟩ hb)
  | spareWrite k d hgr hw =>
    cases hw with
    | spareWrite op c hop hph =>
      refine .inl (hother (p := .spare c.slot) ⟨rfl, rfl⟩ fun he => ?_)
      have hmapped := State.mapped_of_resolve hwf he.symm
      rw [Sparing.wf_iff] at hwf
      have hfree := hwf.2 c.slot (by simp [Sparing.allocated, hop, hph])
      rw [hfree] at hmapped
      cases hmapped
  | _ => exact .inl rfl

/-- Settles O16: in RUNNING the words change by the grant at the end of the event alone, and what is
granted there stores in no word that a protected address reaches, but for the patrol's write-back. -/
theorem protectedWordsKeepTheirValue : Obligations.ProtectedWordsKeepTheirValue := by
  unfold Obligations.ProtectedWordsKeepTheirValue
  intro c s t a hm hd hquiet hf hj hwf _ hdist hreset h ha
  obtain ⟨-, hrun⟩ := hquiet
  obtain ⟨hfill, -⟩ := hrun hd
  have hword : ∀ p, s.grantOwed.word p = s.word p := State.word_congr (by simp)
  have hmu : memCanonical s.grantOwed.store.mem := by simpa using hm
  rcases effect_of_exec h with hq | ⟨v, hv, he⟩
  · refine .inl ?_
    by_contra hne
    rw [← hword] at hne
    rcases hq.word_cases hmu hne with ⟨d, m, ho⟩ | ⟨cause, ho⟩ | ⟨-, hk⟩
    · exact hdist _ d m (Option.some.inj ho)
    · exact hreset cause (Option.some.inj ho)
    · simp [hfill] at hk
  · obtain ⟨hvm, -⟩ := hv.store_frame
    have hvword : ∀ p, v.word p = s.word p := fun p => (State.word_congr hvm p).trans (hword p)
    rcases he.cases with rfl | rfl
    · exact .inl (hvword _)
    rcases v.settle_cases with hs | ⟨-, -, hg⟩
    · exact .inl (by rw [hs]; exact hvword _)
    have hfv : v.fillsUnprotected := hv.fillsUnprotected
      (State.fillsUnprotected_of_noMore hf
        (State.protectsNoMore_of_eq (by simp) (by simp) (by simp)) (State.jobsNoMore_of_eq (by simp)))
    have hwv : v.sparing.wf := hv.sparing_wf (by simpa using hwf)
    have hjv : v.maint.jobsWf :=
      (hv.jobsSound (State.jobsSound_of_eq (n := _) ⟨.inl rfl, hj⟩ (by simp))).2
    have hresolve : v.settle.resolve a = v.resolve a := State.resolve_congr (by simp) a
    have hprot : v.isProtected a.toNat = true := by
      rw [← ha]
      simp only [State.isProtected]
      rw [State.protectedRanges_congr (s := v) (t := v.settle) (by simp) (by simp) (by simp)]
    rw [hresolve, ← hvword]
    exact hg.protected_word (by rw [hvm]; exact hmu) hwv hfv hjv hprot

end

end Sys2Proof.Machine

namespace Sys2Proof.Machine

/-! PROOFS. The lookup queue, the engine and the stall timer (4.4, 4.6, 5.2): their agreement, and the
reads that a progress record in range asks for. -/

section
variable {s t v f : State} {o : Option Instr}

/-! ### Lookup reads in progress -/

theorem Access.lookup_false {a : Access} (h : a.claimant ≠ .lookup) :
    a.isCurrentLookup = false ∧ a.isDrainedLookup = false := by
  cases a with
  | read tag => cases tag <;> simp_all [Access.claimant, Access.isCurrentLookup, Access.isDrainedLookup]
  | write tag => exact ⟨rfl, rfl⟩

theorem Access.lookup_cases {a : Access} (h : a.claimant = .lookup) :
    ∃ r i, a = .read .lookup r i := by
  cases a with
  | read tag r i => cases tag <;> simp_all [Access.claimant]
  | write tag => cases tag <;> simp_all [Access.claimant]

theorem Access.claimant_discard (a : Access) : a.discard.claimant = a.claimant := by
  cases a with
  | read tag => cases tag <;> rfl
  | write tag => cases tag <;> rfl

theorem Access.claimant_afterSoftReset (a : Access) : a.afterSoftReset.claimant = a.claimant := by
  cases a with
  | read tag => cases tag <;> rfl
  | write tag => cases tag <;> rfl

theorem State.accessOf_iff {c : Claimant} :
    s.accessOf c = true ↔ ∃ a, s.store.access = some a ∧ a.claimant = c := by
  unfold State.accessOf
  cases s.store.access <;> simp

/-- No lookup read is in progress. -/
def State.noLookupRead (s : State) : Prop := ∀ a, s.store.access = some a → a.claimant ≠ .lookup

theorem State.noLookupRead_of_none (h : s.store.access = none) : s.noLookupRead := fun a ha => by
  rw [h] at ha; cases ha

/-- The lookup read in progress, current and drained, agrees with the engine (R59, R64). -/
def State.readAgrees (s : State) : Prop :=
  (∀ a ∈ s.store.access, a.isCurrentLookup = true → s.engine.evaluating = true) ∧
    ((∃ a ∈ s.store.access, a.isDrainedLookup = true) ↔
      s.engine ≠ .idle ∧ s.engine.evaluating = false)

theorem State.readAgrees_of_eq (h : s.readAgrees) (ha : t.store.access = s.store.access)
    (he : t.engine = s.engine) : t.readAgrees := by
  unfold State.readAgrees
  rw [ha, he]
  exact h

/-- With no lookup read in progress the engine is IDLE or evaluates. -/
theorem State.readAgrees_iff_of_no_read (h : s.noLookupRead) :
    s.readAgrees ↔ (s.engine = .idle ∨ s.engine.evaluating = true) := by
  have hno : ∀ a ∈ s.store.access, a.isCurrentLookup = false ∧ a.isDrainedLookup = false :=
    fun a ha => Access.lookup_false (h a ha)
  constructor
  · rintro ⟨-, hd⟩
    by_contra hne
    obtain ⟨hidle, hev⟩ := not_or.1 hne
    obtain ⟨a, ha, hdr⟩ := hd.2 ⟨hidle, by simpa using hev⟩
    exact Bool.noConfusion ((hno a ha).2.symm.trans hdr)
  · intro he
    refine ⟨fun a ha hc => Bool.noConfusion ((hno a ha).1.symm.trans hc), ?_, ?_⟩
    · rintro ⟨a, ha, hdr⟩
      exact Bool.noConfusion ((hno a ha).2.symm.trans hdr)
    · rintro ⟨hidle, hev⟩
      rcases he with he | he
      · exact absurd he hidle
      · exact Bool.noConfusion (hev.symm.trans he)

/-- Accesses of the other claimants are nothing to the engine. -/
theorem State.readAgrees_of_no_read (h : s.readAgrees) (hs : s.noLookupRead) (ht : t.noLookupRead)
    (he : t.engine = s.engine) : t.readAgrees := by
  rw [State.readAgrees_iff_of_no_read ht, he]
  exact (State.readAgrees_iff_of_no_read hs).1 h

/-- A READING slot exactly while the engine evaluates (R69). -/
def State.slotAgrees (s : State) : Prop :=
  s.link.queue.countP Slot.isReading = if s.engine.evaluating then 1 else 0

/-- An IDLE engine leaves no slot WAITING (R69). -/
def State.noneMissed (s : State) : Prop :=
  s.engine = .idle → ∀ sl ∈ s.link.queue, sl.isWaiting = false

theorem State.engineAgrees_iff : s.engineAgrees ↔ s.slotAgrees ∧ s.noneMissed ∧ s.readAgrees :=
  Iff.rfl

theorem State.engineAgrees_of_eq (h : s.engineAgrees) (ha : t.store.access = s.store.access)
    (hq : t.link.queue = s.link.queue) (he : t.engine = s.engine) : t.engineAgrees := by
  unfold State.engineAgrees
  rw [ha, hq, he]
  exact h

theorem State.engineAgrees_of_no_read (h : s.engineAgrees) (hs : s.noLookupRead)
    (ht : t.noLookupRead) (hq : t.link.queue = s.link.queue) (he : t.engine = s.engine) :
    t.engineAgrees := by
  obtain ⟨hslot, hwait, hread⟩ := State.engineAgrees_iff.1 h
  refine State.engineAgrees_iff.2 ⟨?_, ?_, State.readAgrees_of_no_read hread hs ht he⟩
  · rw [State.slotAgrees, hq, he]; exact hslot
  · rw [State.noneMissed, hq, he]; exact hwait

/-- An empty queue agrees with an engine that does not evaluate. -/
theorem State.engineAgrees_of_empty (hq : t.link.queue = []) (he : t.engine.evaluating = false)
    (hr : t.readAgrees) : t.engineAgrees :=
  State.engineAgrees_iff.2
    ⟨by simp [State.slotAgrees, hq, he], fun _ => by simp [hq], hr⟩

theorem countP_isReading_eq_zero {q : List Slot} :
    q.countP Slot.isReading = 0 ↔ ∀ x ∈ q, x.isReading = false := by
  simp [List.countP_eq_zero]

/-- An engine at work has a slot, and its lookup claim or read. -/
theorem State.evaluating_of_readingSlot {ch : Chan} {n : Snapshot} (h : s.slotAgrees)
    (hr : readingSlot s.link.queue = some (ch, n)) : s.engine.evaluating = true := by
  by_contra he
  rw [State.slotAgrees, if_neg he, countP_isReading_eq_zero] at h
  rw [readingSlot_eq_none.2 h] at hr
  cases hr

/-- The read that the engine has to make is one of the READING slot's (R73, R74). -/
theorem State.lookupWants_eq_some {a : Addr} (h : s.lookupWants = some a) :
    ∃ ch n, readingSlot s.link.queue = some (ch, n) ∧
      ((∃ p, s.engine = .firstRead p ∧ a = n.bank.entry (firstEntryIndex n p)) ∨
        ∃ p e, s.engine = .secondRead p e ∧ a = n.bank.entry (p.index + 1)) := by
  unfold State.lookupWants at h
  split at h
  · next p ch n he hr => exact ⟨ch, n, hr, .inl ⟨p, he, (Option.some.inj h).symm⟩⟩
  · next p e ch n he hr => exact ⟨ch, n, hr, .inr ⟨p, e, he, (Option.some.inj h).symm⟩⟩
  · cases h

theorem State.evaluating_of_lookupClaim {a : Addr} (h : s.lookupClaim = some a) :
    s.engine.evaluating = true := by
  obtain ⟨-, hw⟩ := State.lookupClaim_eq_some h
  obtain ⟨ch, n, -, ⟨p, he, -⟩ | ⟨p, e, he, -⟩⟩ := State.lookupWants_eq_some hw <;>
    rw [he] <;> rfl

/-! ### Taking a slot (R69) -/

theorem State.takeSlot_idle_cases (h : s.engine = .idle) :
    ((∀ x ∈ s.link.queue, x.isWaiting = false) ∧ s.takeSlot = s) ∨
      ∃ pre sl post d n, s.link.queue = pre ++ sl :: post ∧ sl.phase = .waiting d n ∧
        s.takeSlot = { s with
          link := { s.link with queue := pre ++ { sl with phase := .reading d n } :: post }
          engine := .firstRead (startProgress d n) } := by
  cases hw : takeWaiting s.link.queue with
  | none =>
    have hnone := takeWaiting_eq_none.1 hw
    exact .inl ⟨hnone, State.takeSlot_of_none_waiting hnone⟩
  | some x =>
    obtain ⟨pre, sl, post, hq, hpre, hsl, -⟩ := takeWaiting_eq_some hw
    exact .inr ⟨pre, sl, post, _, _, hq, hsl, State.takeSlot_of_waiting h hq hpre hsl⟩

/-- An IDLE engine has no lookup read in progress. -/
theorem State.noLookupRead_of_idle (h : s.readAgrees) (hi : s.engine = .idle) :
    s.noLookupRead := by
  intro a ha hl
  obtain ⟨r, i, rfl⟩ := Access.lookup_cases hl
  obtain ⟨hcur, hdrained⟩ := h
  by_cases hw : i = .wanted
  · have := hcur _ ha (by simp [Access.isCurrentLookup, hw])
    rw [hi] at this
    cases this
  · exact (hdrained.1 ⟨_, ha, by simp [Access.isDrainedLookup, hw]⟩).1 hi

/-- Taking a slot makes good what an IDLE engine has missed. -/
theorem State.takeSlot_engineAgrees (hs : s.slotAgrees) (hr : s.readAgrees) :
    s.takeSlot.engineAgrees := by
  by_cases hidle : s.engine = .idle
  · rcases State.takeSlot_idle_cases hidle with ⟨hw, ht⟩ | ⟨pre, sl, post, d, n, hq, hsl, ht⟩
    · rw [ht]
      exact State.engineAgrees_iff.2 ⟨hs, fun _ => hw, hr⟩
    · have hno : s.takeSlot.noLookupRead := by
        intro a ha
        exact State.noLookupRead_of_idle hr hidle a (by simpa using ha)
      simp only [State.slotAgrees, hidle, Engine.evaluating, hq, List.countP_append,
        List.countP_cons, Slot.isReading, hsl] at hs
      refine State.engineAgrees_iff.2 ⟨?_, ?_, (State.readAgrees_iff_of_no_read hno).2 (.inr ?_)⟩
      · rw [ht]
        simp only [State.slotAgrees, List.countP_append, List.countP_cons, Engine.evaluating,
          Slot.isReading, if_true, reduceCtorEq, if_false] at hs ⊢
        omega
      · rw [ht]
        exact fun h => Engine.noConfusion h
      · rw [ht]
        rfl
  · rw [State.takeSlot_of_busy hidle]
    exact State.engineAgrees_iff.2 ⟨hs, fun h => absurd h hidle, hr⟩

theorem State.takeSlot_follows (h : s.stallFollowsOffer) : s.takeSlot.stallFollowsOffer := by
  rcases s.takeSlot_cases with ht | ⟨pre, sl, post, d, n, -, hq, -, hsl, ht⟩
  · rw [ht]; exact h
  · unfold State.stallFollowsOffer at h ⊢
    rw [ht]
    rw [hq] at h
    cases pre <;> simpa [headDone, Slot.isDone, hsl] using h

/-! ### Link and soft resets (R63, R64, R86) -/

theorem State.dropEngine_not_evaluating : s.dropEngine.evaluating = false := by
  unfold State.dropEngine
  split
  · split <;> rfl
  · split <;> rfl
  · rfl
  · rfl

theorem State.exists_readingSlot (h : s.slotAgrees) (he : s.engine.evaluating = true) :
    ∃ ch n, readingSlot s.link.queue = some (ch, n) := by
  cases hr : readingSlot s.link.queue with
  | some x => exact ⟨_, _, rfl⟩
  | none =>
    rw [State.slotAgrees, if_pos he, countP_isReading_eq_zero.2 (readingSlot_eq_none.1 hr)] at h
    cases h

/-- A granted read drains, an ungranted one is withdrawn, and an engine without a slot stays as it is
(R86). -/
theorem State.dropEngine_cases (h : s.slotAgrees) :
    (s.engine.evaluating = true ∧ s.accessOf .lookup = true ∧
      ∃ ch b f, s.dropEngine = .draining ch b f) ∨
    (s.engine.evaluating = true ∧ s.accessOf .lookup = false ∧ s.dropEngine = .idle) ∨
    s.engine.evaluating = false ∧ s.dropEngine = s.engine := by
  cases he : s.engine with
  | idle => exact .inr (.inr ⟨rfl, by simp [State.dropEngine, he]⟩)
  | draining ch b f => exact .inr (.inr ⟨rfl, by simp [State.dropEngine, he]⟩)
  | firstRead p =>
    obtain ⟨ch, n, hr⟩ := State.exists_readingSlot h (by rw [he]; rfl)
    cases ha : s.accessOf .lookup
    · exact .inr (.inl ⟨rfl, rfl, by simp [State.dropEngine, he, hr, ha]⟩)
    · exact .inl ⟨rfl, rfl, ch, n.bank, p.anyFaulty, by simp [State.dropEngine, he, hr, ha]⟩
  | secondRead p e =>
    obtain ⟨ch, n, hr⟩ := State.exists_readingSlot h (by rw [he]; rfl)
    cases ha : s.accessOf .lookup
    · exact .inr (.inl ⟨rfl, rfl, by simp [State.dropEngine, he, hr, ha]⟩)
    · exact .inl ⟨rfl, rfl, ch, n.bank, p.anyFaulty, by simp [State.dropEngine, he, hr, ha]⟩

/-- A reset that empties the queue and leaves a lookup read in progress to drain. -/
theorem State.engineAgrees_of_drop (h : s.engineAgrees) (hq : t.link.queue = [])
    (he : t.engine = s.dropEngine) (hno : s.noLookupRead → t.noLookupRead)
    (hdrained : ∀ a, s.store.access = some a → a.claimant = .lookup →
      ∃ b, t.store.access = some b ∧ b.isDrainedLookup = true ∧ b.isCurrentLookup = false) :
    t.engineAgrees := by
  obtain ⟨hslot, -, hread⟩ := State.engineAgrees_iff.1 h
  have hev : t.engine.evaluating = false := by rw [he]; exact State.dropEngine_not_evaluating
  refine State.engineAgrees_of_empty hq hev ?_
  by_cases hl : s.accessOf .lookup = true
  · obtain ⟨a, ha, hc⟩ := State.accessOf_iff.1 hl
    obtain ⟨b, hb, hbd, hbc⟩ := hdrained a ha hc
    have hbusy : t.engine ≠ .idle := by
      rw [he]
      rcases State.dropEngine_cases hslot with ⟨-, -, ch, bk, f, hd⟩ | ⟨-, hf, -⟩ | ⟨-, hd⟩
      · rw [hd]; exact fun h => Engine.noConfusion h
      · exact Bool.noConfusion (hf.symm.trans hl)
      · rw [hd]
        exact fun hi => State.noLookupRead_of_idle hread hi a ha hc
    refine ⟨fun x hx hcur => ?_, fun _ => ⟨hbusy, hev⟩, fun _ => ⟨b, hb, hbd⟩⟩
    cases hb.symm.trans hx
    exact Bool.noConfusion (hbc.symm.trans hcur)
  · have hnos : s.noLookupRead := fun a ha hc => hl (State.accessOf_iff.2 ⟨a, ha, hc⟩)
    refine (State.readAgrees_iff_of_no_read (hno hnos)).2 (.inl ?_)
    rw [he]
    rcases State.dropEngine_cases hslot with ⟨-, ht, -⟩ | ⟨-, -, hd⟩ | ⟨hnev, hd⟩
    · exact absurd ht hl
    · exact hd
    · rw [hd]
      rcases (State.readAgrees_iff_of_no_read hnos).1 hread with hi | hi
      · exact hi
      · exact Bool.noConfusion (hnev.symm.trans hi)

theorem State.noLookupRead_map {g : Access → Access} (hg : ∀ a, (g a).claimant = a.claimant)
    (h : s.noLookupRead) (ht : t.store.access = s.store.access.map g) : t.noLookupRead := by
  intro a ha
  rw [ht, Option.map_eq_some_iff] at ha
  obtain ⟨b, hb, rfl⟩ := ha
  rw [hg]
  exact h b hb

theorem State.linkReset_engineAgrees (h : s.engineAgrees) (l : Link) (hl : l.queue = []) :
    (s.discardSlots.setLink l).engineAgrees := by
  obtain ⟨hslot, -, hread⟩ := State.engineAgrees_iff.1 h
  refine State.engineAgrees_of_drop h (by simpa using hl) (by simp) (fun hno => ?_) fun a ha hc => ?_
  · rcases State.accessAfterLinkReset_cases (s := s) with hx | ⟨-, hx⟩
    · exact fun a ha => hno a (by simpa [hx] using ha)
    · exact State.noLookupRead_map Access.claimant_discard hno (by simp [hx])
  · obtain ⟨r, i, rfl⟩ := Access.lookup_cases hc
    have hof : s.accessOf .lookup = true := State.accessOf_iff.2 ⟨_, ha, rfl⟩
    simp only [State.setLink_store, State.discardSlots_frame]
    cases he : s.engine with
    | idle => exact absurd hc (State.noLookupRead_of_idle hread he _ ha)
    | firstRead p =>
      exact ⟨.read .lookup r .stale, by simp [State.accessAfterLinkReset, he, hof, ha, Access.discard],
        rfl, rfl⟩
    | secondRead p e =>
      exact ⟨.read .lookup r .stale, by simp [State.accessAfterLinkReset, he, hof, ha, Access.discard],
        rfl, rfl⟩
    | draining ch b f =>
      have hi : i ≠ .wanted := by
        rintro rfl
        have := hread.1 _ ha rfl
        rw [he] at this
        cases this
      exact ⟨.read .lookup r i, by simp [State.accessAfterLinkReset, he, ha],
        by simp [Access.isDrainedLookup, hi], by simp [Access.isCurrentLookup, hi]⟩

theorem State.softReset_engineAgrees (h : s.engineAgrees) : s.softReset.engineAgrees := by
  refine State.engineAgrees_of_drop h rfl rfl
    (fun hno => State.noLookupRead_map Access.claimant_afterSoftReset hno rfl) fun a ha hc => ?_
  obtain ⟨r, i, rfl⟩ := Access.lookup_cases hc
  exact ⟨.read .lookup r .dropped, by simp [State.softReset, ha, Access.afterSoftReset], rfl, rfl⟩

/-! ### The steps -/

theorem State.pushSlot_follows (w : BitVec 29) (p : SlotPhase) :
    (s.pushSlot w p).stallFollowsOffer := Link.refreshOffer_follows _

theorem State.stallFollowsOffer_of_eq (h : s.stallFollowsOffer)
    (hs : t.link.stall.isSome = s.link.stall.isSome) (hq : t.link.queue = s.link.queue) :
    t.stallFollowsOffer := by
  unfold State.stallFollowsOffer
  rw [hs, hq]
  exact h

theorem State.checkStall_stallFollows (h : s.stallFollowsOffer) : s.checkStall.stallFollowsOffer :=
  State.stallFollowsOffer_of_eq h State.checkStall_stall_isSome (by simp)

/-- A lookup completion ends with the offer refreshed and a slot taken (R80). -/
theorem State.completeLookup_follows (ch : Chan) (n : Snapshot) (p : Progress) (y : Int) :
    (s.completeLookup ch n p y).stallFollowsOffer := by
  unfold State.completeLookup
  exact State.takeSlot_follows (Link.refreshOffer_follows _)

theorem State.Quiet.stallFollowsOffer (h : s.Quiet o t) (hs : s.stallFollowsOffer) :
    t.stallFollowsOffer := by
  cases h with
  | pinReset => rfl
  | powerOn => rfl
  | delivery => exact Link.refreshOffer_follows _
  | linkTimeout => exact State.checkStall_stallFollows hs
  | _ => exact hs

theorem State.Active.stallFollowsOffer (h : s.Active o v) (hs : s.stallFollowsOffer) :
    v.stallFollowsOffer := by
  have hfiled : ∀ f, (s.setAccess none).Filed f → f.link = s.link := fun f hf => by
    obtain ⟨-, -, hl, -⟩ := hf.frame
    exact hl
  have hlink : ∀ {t : State}, t.link = s.link → t.stallFollowsOffer := fun he =>
    State.stallFollowsOffer_of_eq hs (by rw [he]) (by rw [he])
  cases h with
  | answered w r h => exact State.pushSlot_follows w _
  | frame w => exact State.pushSlot_follows w _
  | bind w => exact State.takeSlot_follows (State.pushSlot_follows w _)
  | timers st p f hst => exact State.stallFollowsOffer_of_eq hs hst rfl
  | linkReset => simp [State.stallFollowsOffer, headDone]
  | lastRead r i p ch n y => exact State.completeLookup_follows _ _ _ _
  | drained r i ch b g q ha he hq =>
    refine State.takeSlot_follows (hlink ?_)
    rcases hq with rfl | rfl <;> simp
  | wordEnd a c f j j' out ha hc hk hf => exact hlink (by simp [hfiled f hf])
  | wordNext a c f j j' ha hc hk hf => exact hlink (hfiled f hf)
  | retireAlloc r f op c ha hop hf => exact hlink (hfiled f hf)
  | retireNoSpare r f op ha hop hf => exact hlink (by simp [hfiled f hf])
  | patrolRead r f st n ha hst hf => exact hlink (by simp [hfiled f hf])
  | softReset => rfl
  | abort => exact hlink (by split <;> simp)
  | _ => exact hlink (by simp [State.movePointer_eq, State.endTableRead_eq, State.postWrite_eq])

theorem State.pushSlot_slotAgrees (h : s.slotAgrees) {w : BitVec 29} {p : SlotPhase}
    (hp : (requestSlot w p).isReading = false) : (s.pushSlot w p).slotAgrees := by
  simpa [State.slotAgrees, List.countP_append, hp] using h

theorem State.pushSlot_readAgrees (h : s.readAgrees) (w : BitVec 29) (p : SlotPhase) :
    (s.pushSlot w p).readAgrees := State.readAgrees_of_eq h (by simp) (by simp)

/-- A DONE slot at the tail is nothing to the engine. -/
theorem State.engineAgrees_of_push_done (h : s.engineAgrees) {sl : Slot} (hd : sl.isDone = true)
    (hq : t.link.queue = s.link.queue ++ [sl]) (he : t.engine = s.engine)
    (ha : t.store.access = s.store.access) : t.engineAgrees := by
  obtain ⟨hslot, hwait, hread⟩ := State.engineAgrees_iff.1 h
  have hsl : sl.isReading = false ∧ sl.isWaiting = false := by
    cases hp : sl.phase <;> simp_all [Slot.isDone, Slot.isReading, Slot.isWaiting]
  refine State.engineAgrees_iff.2 ⟨?_, fun hi x hx => ?_, State.readAgrees_of_eq hread ha he⟩
  · simpa [State.slotAgrees, hq, he, List.countP_append, hsl.1] using hslot
  · rw [hq, List.mem_append, List.mem_singleton] at hx
    rcases hx with hx | rfl
    · exact hwait (he ▸ hi) x hx
    · exact hsl.2

theorem State.deviceReset_engineAgrees (m : List (Nat × StoredWord)) (k : Option Nat) (b : Bool) :
    (s.deviceReset m k b).engineAgrees :=
  State.engineAgrees_of_empty (t := s.deviceReset m k b) rfl rfl
    ((State.readAgrees_iff_of_no_read (State.noLookupRead_of_none rfl)).2 (.inl rfl))

theorem State.Quiet.engineAgrees (h : s.Quiet o t) (hs : s.engineAgrees) : t.engineAgrees := by
  cases h with
  | pinReset => exact State.deviceReset_engineAgrees _ _ _
  | powerOn => exact State.deviceReset_engineAgrees _ _ _
  | delivery sl rest w hq hd =>
    obtain ⟨hslot, hwait, hread⟩ := State.engineAgrees_iff.1 hs
    have hsl : sl.isReading = false := by
      cases hp : sl.phase <;> simp_all [Slot.isDone, Slot.isReading]
    refine State.engineAgrees_iff.2 ⟨?_, fun hi x hx => hwait hi x ?_, hread⟩
    · simpa [State.slotAgrees, hq, hsl] using hslot
    · rw [hq]
      exact List.mem_cons_of_mem _ (by simpa using hx)
  | _ => exact State.engineAgrees_of_eq hs (by simp) (by simp) (by simp)

/-- A discarded prefetch is no lookup read (R160). -/
theorem State.discardPrefetch_engineAgrees (h : s.engineAgrees) (ht : t.store = s.discardPrefetch)
    (hq : t.link.queue = s.link.queue) (he : t.engine = s.engine) : t.engineAgrees := by
  rcases State.discardPrefetch_access (s := s) with ⟨r, hr, hd⟩ | ⟨-, hd⟩
  · refine State.engineAgrees_of_no_read h (fun a ha hl => ?_) (fun a ha hl => ?_) hq he
    · cases hr.symm.trans ha
      cases hl
    · rw [ht, hd] at ha
      cases ha
      cases hl
  · exact State.engineAgrees_of_eq h (by rw [ht, hd]) hq he

/-- The slot that completes is the READING one, and no other is. -/
theorem countP_finishReading {q : List Slot} {ch : Chan} {n : Snapshot} (r : Response)
    (h : readingSlot q = some (ch, n)) :
    (finishReading r q).countP Slot.isReading + 1 = q.countP Slot.isReading := by
  obtain ⟨pre, sl, post, d, rfl, hpre, hsl, -⟩ := readingSlot_eq_some h
  rw [finishReading_split r hpre hsl, List.countP_append, List.countP_append, List.countP_cons,
    List.countP_cons]
  simp only [Slot.isReading, hsl, if_true, if_false, Bool.false_eq_true]
  omega

/-- A completion is a slot taken by an engine that has become IDLE (R80). -/
theorem State.completeLookup_takes (ch : Chan) (n : Snapshot) (p : Progress) (y : Int) :
    ∃ (u : State) (r : Response), s.completeLookup ch n p y = u.takeSlot ∧ u.engine = .idle ∧
      u.store = s.store ∧ u.link.queue = finishReading r s.link.queue :=
  ⟨_, lookupResponse n p y s.channels[ch].lastGood, rfl, rfl, by simp, by simp⟩

theorem State.finishReading_slotAgrees {u : State} {ch : Chan} {n : Snapshot} {r : Response}
    (hs : s.slotAgrees) (hr : readingSlot s.link.queue = some (ch, n)) (hu : u.engine = .idle)
    (hq : u.link.queue = finishReading r s.link.queue) : u.slotAgrees := by
  have hcount := countP_finishReading r hr
  rw [State.slotAgrees, if_pos (State.evaluating_of_readingSlot hs hr)] at hs
  rw [State.slotAgrees, hu, hq]
  exact Nat.succ.inj (hcount.trans hs)

theorem State.completeLookup_engineAgrees {ch : Chan} {n : Snapshot} (hs : s.slotAgrees)
    (ha : s.store.access = none) (hr : readingSlot s.link.queue = some (ch, n)) (p : Progress)
    (y : Int) : (s.completeLookup ch n p y).engineAgrees := by
  obtain ⟨u, r, he, hidle, hst, hq⟩ := State.completeLookup_takes (s := s) ch n p y
  rw [he]
  exact State.takeSlot_engineAgrees (State.finishReading_slotAgrees hs hr hidle hq)
    ((State.readAgrees_iff_of_no_read (State.noLookupRead_of_none (by rw [hst]; exact ha))).2
      (.inl hidle))

theorem State.Active.engineAgrees (h : s.Active o v) (hs : s.engineAgrees) : v.engineAgrees := by
  obtain ⟨hslot, hwait, hread⟩ := State.engineAgrees_iff.1 hs
  have hfiled : ∀ f, (s.setAccess none).Filed f →
      f.link = s.link ∧ f.engine = s.engine ∧ f.store.access = none := fun f hf => by
    obtain ⟨hst, -, hl, he, -⟩ := hf.frame
    exact ⟨hl, he, by rw [hst]; rfl⟩
  have hfreed : ∀ {t : State} {a : Access}, s.store.access = some a → a.claimant ≠ .lookup →
      t.store.access = none → t.link.queue = s.link.queue → t.engine = s.engine →
      t.engineAgrees := fun ha hl ht hq he =>
    State.engineAgrees_of_no_read hs (fun b hb => by cases ha.symm.trans hb; exact hl)
      (State.noLookupRead_of_none ht) hq he
  cases h with
  | answered w r h =>
    exact State.engineAgrees_of_push_done (s := s) hs (sl := requestSlot w (.done r)) rfl (by simp)
      (by simp) (by simp)
  | frame w =>
    exact State.engineAgrees_of_push_done hs (sl := requestSlot w _) rfl (by simp; rfl) (by simp)
      (by simp)
  | bind w =>
    exact State.takeSlot_engineAgrees (State.pushSlot_slotAgrees hslot rfl)
      (State.pushSlot_readAgrees hread w _)
  | linkReset => exact State.linkReset_engineAgrees hs _ (by simp)
  | firstRead r i p ch n ha he hr =>
    obtain ⟨hl, -, hacc⟩ := hfiled _ (State.fileRead_filed r .lookup (some ch))
    refine State.engineAgrees_iff.2 ⟨?_, fun h => Engine.noConfusion h, ?_⟩
    · rw [State.slotAgrees, he] at hslot
      rw [State.slotAgrees, State.setEngine_link, hl, hslot]
      rfl
    · refine (State.readAgrees_iff_of_no_read (State.noLookupRead_of_none ?_)).2 (.inr rfl)
      exact hacc
  | lastRead r i p ch n y ha he hr =>
    obtain ⟨hl, hen, hacc⟩ := hfiled _ (State.fileRead_filed r .lookup (some ch))
    exact State.completeLookup_engineAgrees (by rw [State.slotAgrees, hl, hen]; exact hslot) hacc
      (by rw [hl]; exact hr) p y
  | drained r i ch b g q ha he hq =>
    have hfields : q.link = s.link ∧ q.engine = .idle ∧ q.store.access = none := by
      rcases hq with rfl | rfl <;> simp
    obtain ⟨hl, hidle, hacc⟩ := hfields
    refine State.takeSlot_engineAgrees ?_
      ((State.readAgrees_iff_of_no_read (State.noLookupRead_of_none hacc)).2 (.inl hidle))
    rw [State.slotAgrees, he] at hslot
    rw [State.slotAgrees, hl, hidle, hslot]
    rfl
  | prefetched r i ha =>
    exact hfreed ha (by simp [Access.claimant]) (by simp) (by simp) (by simp)
  | postDone k i ha => exact hfreed ha (by simp [Access.claimant]) rfl rfl rfl
  | postNext k i w ha =>
    exact hfreed ha (by simp [Access.claimant])
      (State.discardPrefetch_of_free (s := s.setAccess none) rfl) rfl rfl
  | freed a c ha hc hl => exact hfreed ha hl rfl rfl rfl
  | wordEnd a c f j j' out ha hc hk hf =>
    obtain ⟨hl, he, hacc⟩ := hfiled f hf
    refine hfreed ha ?_ (by simp [hacc]) (by simp [hl]) (by simp [he])
    rcases hk with ⟨k, rfl⟩ | ⟨r, rfl⟩ <;> simp [Access.claimant]
  | wordNext a c f j j' ha hc hk hf =>
    obtain ⟨hl, he, hacc⟩ := hfiled f hf
    refine hfreed ha ?_ hacc (by simp [hl]) he
    rcases hk with ⟨k, rfl⟩ | ⟨r, rfl⟩ <;> simp [Access.claimant]
  | retireAlloc r f op c ha hop hf =>
    obtain ⟨hl, he, hacc⟩ := hfiled f hf
    exact hfreed ha (by simp [Access.claimant]) hacc (by simp [hl]) he
  | retireNoSpare r f op ha hop hf =>
    obtain ⟨hl, he, hacc⟩ := hfiled f hf
    exact hfreed ha (by simp [Access.claimant]) (by simp [hacc]) (by simp [hl]) (by simp [he])
  | commit k op c ha => exact hfreed ha (by simp [Access.claimant]) (by simp) (by simp) (by simp)
  | patrolRead r f st n ha hst hf =>
    obtain ⟨hl, he, hacc⟩ := hfiled f hf
    exact hfreed ha (by simp [Access.claimant]) (by simp [hacc]) (by simp [hl]) (by simp [he])
  | writeBack k st ha => exact hfreed ha (by simp [Access.claimant]) (by simp) (by simp) (by simp)
  | movePointer a => exact State.discardPrefetch_engineAgrees hs rfl rfl rfl
  | post w => exact State.discardPrefetch_engineAgrees hs rfl rfl rfl
  | softReset => exact State.softReset_engineAgrees hs
  | abort => split <;> exact State.engineAgrees_of_eq hs (by simp) (by simp) (by simp)
  | tableRead d => exact State.engineAgrees_of_eq hs rfl rfl rfl
  | _ => exact State.engineAgrees_of_eq hs (by simp) (by simp) (by simp)

theorem State.Grant.engineAgrees (hg : s.Grant t) (hn : s.store.access = none)
    (h : s.engineAgrees) : t.engineAgrees := by
  obtain ⟨-, hl, he, -⟩ := hg.frame
  have hother : t.noLookupRead → t.engineAgrees := fun ht =>
    State.engineAgrees_of_no_read h (State.noLookupRead_of_none hn) ht (by rw [hl]) he
  cases hg with
  | lookup a hc =>
    obtain ⟨hslot, hwait, hread⟩ := State.engineAgrees_iff.1 h
    have hev := State.evaluating_of_lookupClaim hc
    refine State.engineAgrees_iff.2 ⟨hslot, hwait, fun _ _ _ => hev, ?_, fun ⟨_, hf⟩ => ?_⟩
    · rintro ⟨b, hb, hd⟩
      cases hb
      cases hd
    · exact Bool.noConfusion (hf.symm.trans hev)
  | maintWrite tag b d hgr hw =>
    refine hother fun b hb => ?_
    cases hb
    cases hw <;> exact fun h => Claimant.noConfusion h
  | reported p =>
    refine hother fun b hb => ?_
    simp only [State.reportHostWrite_frame] at hb
    cases hb
    exact fun h => Claimant.noConfusion h
  | _ =>
    refine hother fun b hb => ?_
    cases hb
    exact fun h => Claimant.noConfusion h

/-- Settles O55: queue, engine and lookup read change together at each event of a lookup. -/
theorem stepKeepsQueueAndEngineInAgreement : Obligations.StepKeepsQueueAndEngineInAgreement := by
  unfold Obligations.StepKeepsQueueAndEngineInAgreement
  intro s t he hs h
  have hfollows : t.stallFollowsOffer := by
    refine step_keeps (P := State.stallFollowsOffer) (fun s h => h) (fun s t _ _ hg h => ?_)
      (fun o s t hq => hq.stallFollowsOffer) (fun o s v hv => hv.stallFollowsOffer) h hs
    obtain ⟨-, hl, -⟩ := hg.frame
    exact State.stallFollowsOffer_of_eq h (by rw [hl]) (by rw [hl])
  exact ⟨step_keeps (P := State.engineAgrees) (fun s h => h)
    (fun s t _ hn hg => hg.engineAgrees hn) (fun o s t hq => hq.engineAgrees)
    (fun o s v hv => hv.engineAgrees) h he, hfollows⟩

/-! ### The reads of a progress record in range (R72 to R74) -/

/-- Index below 2^k and fraction below 2^(16 - k) (R71). -/
def Progress.inRange (p : Progress) (n : Snapshot) : Prop :=
  p.index < 2 ^ n.bank.order.toNat ∧ p.fraction < 2 ^ (16 - n.bank.order.toNat)

theorem Bank.order_le {b : Bank} (h : b.wf) : b.order.toNat ≤ 10 := by
  obtain ⟨ho, -⟩ := h
  simp only [orderValid, decide_eq_true_eq] at ho
  omega

/-- R71 gives each field its bits. -/
theorem startProgress_inRange {n : Snapshot} (h : n.bank.wf) (d : Data) :
    (startProgress d n).inRange n :=
  ⟨Bank.index_lt (Bank.order_le h) (offsetStep_lt _ _), Nat.mod_lt _ n.bank.interval_pos⟩

theorem Bank.entry_toNat {b : Bank} {j : Nat} (h : b.wf) (hj : j ≤ 2 ^ b.order.toNat) :
    (b.entry j).toNat = b.base.toNat + j := by
  obtain ⟨-, hf⟩ := h
  have := Bank.fits_iff.1 hf
  rw [Bank.entry, BitVec.toNat_ofNat, Nat.mod_eq_of_lt (by omega)]

theorem firstEntryIndex_le (n : Snapshot) (p : Progress) : firstEntryIndex n p ≤ p.index + 1 := by
  unfold firstEntryIndex
  split
  · omega
  · split <;> omega

theorem State.lookupWants_in_bank (hc : s.contextsWf) (he : s.engineInRange) {a : Addr}
    (h : s.lookupWants = some a) : ∃ ch n, readingSlot s.link.queue = some (ch, n) ∧
      n.bank.base.toNat ≤ a.toNat ∧ a.toNat ≤ n.bank.base.toNat + 2 ^ n.bank.order.toNat := by
  obtain ⟨ch, n, hr, ha⟩ := State.lookupWants_eq_some h
  obtain ⟨pre, sl, post, d, hq, -, hsl, -⟩ := readingSlot_eq_some hr
  have hwf : n.wf := by
    have := hc.2 sl (by simp [hq])
    rwa [Slot.wf, hsl] at this
  obtain ⟨hfirst, hsecond⟩ := he ch n hr
  have hentry : ∃ j, a = n.bank.entry j ∧ j ≤ 2 ^ n.bank.order.toNat := by
    rcases ha with ⟨p, hp, rfl⟩ | ⟨p, e, hp, rfl⟩
    · obtain ⟨hi, -⟩ := hfirst p hp
      exact ⟨_, rfl, (firstEntryIndex_le n p).trans hi⟩
    · obtain ⟨hi, -⟩ := hsecond p e hp
      exact ⟨_, rfl, hi⟩
  obtain ⟨j, rfl, hj⟩ := hentry
  rw [Bank.entry_toNat hwf.1 hj]
  exact ⟨ch, n, hr, by omega, by omega⟩

/-- The same slot read, and the same progress or an idle engine. -/
theorem State.engineInRange_of_eq (h : s.engineInRange)
    (hq : readingSlot t.link.queue = readingSlot s.link.queue) (he : t.engine = s.engine) :
    t.engineInRange := by
  unfold State.engineInRange
  rw [hq, he]
  exact h

theorem State.engineInRange_of_not_evaluating (h : s.engine.evaluating = false) :
    s.engineInRange :=
  fun _ _ _ => ⟨fun _ hp => absurd h (by simp [hp, Engine.evaluating]),
    fun _ _ hp => absurd h (by simp [hp, Engine.evaluating])⟩

/-- The slot that an engine takes starts with a progress record in range. -/
theorem State.takeSlot_engineInRange (hwf : s.slotsWf) (hs : s.slotAgrees) (h : s.engineInRange) :
    s.takeSlot.engineInRange := by
  rcases s.takeSlot_cases with ht | ⟨pre, sl, post, d, n, hidle, hq, -, hsl, ht⟩
  · rw [ht]; exact h
  · have hn : n.wf := by
      have := hwf sl (by simp [hq])
      rwa [Slot.wf, hsl] at this
    have hpre : ∀ x ∈ pre, x.isReading = false := by
      rw [State.slotAgrees, hidle, hq] at hs
      have := countP_isReading_eq_zero.1 hs
      exact fun x hx => this x (by simp [hx])
    intro ch' n' hr
    rw [ht] at hr ⊢
    have hsplit := readingSlot_split (post := post) (n := n)
      (sl := { sl with phase := .reading d n }) hpre rfl
    cases hsplit.symm.trans hr
    refine ⟨fun p hp => ?_, fun p e hp => Engine.noConfusion hp⟩
    cases hp
    exact startProgress_inRange hn.1 d

/-- The premises that the lookup engine's reads rest on. -/
def State.readsSound (s : State) : Prop := s.contextsWf ∧ s.engineAgrees ∧ s.engineInRange

theorem State.Grant.engineInRange (hg : s.Grant t) (h : s.engineInRange) : t.engineInRange := by
  obtain ⟨-, hl, he, -⟩ := hg.frame
  exact State.engineInRange_of_eq h (by rw [hl]) he

theorem State.Quiet.engineInRange (h : s.Quiet o t) (hs : s.engineInRange) : t.engineInRange := by
  cases h with
  | pinReset => exact State.engineInRange_of_not_evaluating rfl
  | powerOn => exact State.engineInRange_of_not_evaluating rfl
  | delivery sl rest w hq hd =>
    refine State.engineInRange_of_eq hs ?_ rfl
    simp only [Link.refreshOffer_frame, hq, readingSlot]
    cases hp : sl.phase <;> simp_all [Slot.isDone]
  | _ => exact State.engineInRange_of_eq hs (by simp) (by simp)

theorem State.Active.engineInRange (h : s.Active o v) (hs : s.readsSound) : v.engineInRange := by
  obtain ⟨⟨hc, hwf⟩, ha, hr⟩ := hs
  obtain ⟨hslot, -, -⟩ := State.engineAgrees_iff.1 ha
  have hfiled : ∀ f, (s.setAccess none).Filed f → f.link = s.link ∧ f.engine = s.engine :=
    fun f hf => by
      obtain ⟨-, -, hl, he, -⟩ := hf.frame
      exact ⟨hl, he⟩
  have hlink : ∀ {t : State}, t.link = s.link → t.engine = s.engine → t.engineInRange :=
    fun hl he => State.engineInRange_of_eq hr (by rw [hl]) he
  have hdrop : ∀ {t : State}, t.engine = s.dropEngine → t.engineInRange := fun he =>
    State.engineInRange_of_not_evaluating (by rw [he]; exact State.dropEngine_not_evaluating)
  cases h with
  | answered w r h =>
    exact State.engineInRange_of_eq (s := s) hr
      (by simp only [State.pushSlot_queue]; exact readingSlot_append rfl) (by simp)
  | frame w =>
    exact State.engineInRange_of_eq hr 
      (by simp only [State.acceptFrame_frame]; exact readingSlot_append rfl) (by simp)
  | bind w =>
    refine State.takeSlot_engineInRange ?_ (State.pushSlot_slotAgrees hslot rfl)
      (State.engineInRange_of_eq hr ?_ (by simp))
    · simp only [State.slotsWf, State.pushSlot_queue]
      exact State.slotsWf_append hwf (Context.snapshot_wf (State.channelsWf_get hc _))
    · simp only [State.pushSlot_queue]
      exact readingSlot_append rfl
  | linkReset => exact hdrop (by simp)
  | softReset => exact hdrop rfl
  | firstRead r i p ch n ha he hrd =>
    obtain ⟨hl, -⟩ := hfiled _ (State.fileRead_filed r .lookup (some ch))
    intro ch' n' hr'
    rw [State.setEngine_link, hl] at hr'
    refine ⟨fun q hq => Engine.noConfusion hq, fun q e hq => ?_⟩
    cases hq
    exact (hr ch' n' hr').1 p he
  | lastRead r i p ch n y ha he hrd =>
    obtain ⟨hl, hen⟩ := hfiled _ (State.fileRead_filed r .lookup (some ch))
    obtain ⟨u, resp, hu, hidle, -, hq⟩ := State.completeLookup_takes
      (s := (s.setAccess none).fileRead r .lookup (some ch)) ch n p y
    rw [hl] at hq
    rw [hu]
    refine State.takeSlot_engineInRange ?_ (State.finishReading_slotAgrees hslot hrd hidle hq)
      (State.engineInRange_of_not_evaluating (by rw [hidle]; rfl))
    rw [State.slotsWf, hq]
    exact finishReading_wf resp hwf
  | drained r i ch b g q ha he hq =>
    have hfields : q.link = s.link ∧ q.engine = .idle := by rcases hq with rfl | rfl <;> simp
    obtain ⟨hl, hidle⟩ := hfields
    refine State.takeSlot_engineInRange (by rw [State.slotsWf, hl]; exact hwf) ?_
      (State.engineInRange_of_not_evaluating (by rw [hidle]; rfl))
    rw [State.slotAgrees, he] at hslot
    rw [State.slotAgrees, hl, hidle, hslot]
    rfl
  | wordEnd a c f j j' out ha hc hk hf =>
    obtain ⟨hl, he⟩ := hfiled f hf
    exact hlink (by simp [hl]) (by simp [he])
  | wordNext a c f j j' ha hc hk hf =>
    obtain ⟨hl, he⟩ := hfiled f hf
    exact hlink hl he
  | retireAlloc r f op c ha hop hf =>
    obtain ⟨hl, he⟩ := hfiled f hf
    exact hlink hl he
  | retireNoSpare r f op ha hop hf =>
    obtain ⟨hl, he⟩ := hfiled f hf
    exact hlink (by simp [hl]) (by simp [he])
  | patrolRead r f st n ha hst hf =>
    obtain ⟨hl, he⟩ := hfiled f hf
    exact hlink (by simp [hl]) (by simp [he])
  | timers => exact hr
  | abort => split <;> exact hlink (by simp) (by simp)
  | _ =>
    exact hlink (by simp [State.movePointer_eq, State.endTableRead_eq, State.postWrite_eq])
      (by simp [State.movePointer_eq, State.endTableRead_eq, State.postWrite_eq])

/-- Settles O26: the engine reads entries `e[0]` to `e[2^k]` of the bank that its slot has bound. -/
theorem lookupReadsStayInTheBoundRange : Obligations.LookupReadsStayInTheBoundRange := by
  unfold Obligations.LookupReadsStayInTheBoundRange
  refine ⟨fun s hc he a h => State.lookupWants_in_bank hc he h, fun s t hc ha he h => ?_⟩
  have hsound : t.readsSound := step_keeps (P := State.readsSound) (fun s h => h)
    (fun s t _ hn hg ⟨hc, ha, hr⟩ => ⟨hg.contextsWf hc, hg.engineAgrees hn ha, hg.engineInRange hr⟩)
    (fun o s t hq ⟨hc, ha, hr⟩ => ⟨hq.contextsWf hc, hq.engineAgrees ha, hq.engineInRange hr⟩)
    (fun o s v hv hs => ⟨hv.contextsWf hs.1, hv.engineAgrees hs.2.1, hv.engineInRange hs⟩) h
    ⟨hc, ha, he⟩
  exact hsound.2.2

end

end Sys2Proof.Machine

namespace Sys2Proof.Machine

/-! PROOFS. Ranges: the wait counts, the lookup queue, the registers with restricted values, and the two
timers against their settings (2.5, 4.4, 4.6, 9.3, 10.1, 10.3). -/

section
variable {s t v f : State} {o : Option Instr}

/-! ### Wait counts and the lookup queue (R12, R13, R52) -/

theorem State.waitsAfterLookup_le (h : s.waitsInRange) :
    s.waitsAfterLookup.1 ≤ 4 ∧ s.waitsAfterLookup.2 ≤ 16 := by
  obtain ⟨hh, hm⟩ := h
  unfold State.waitsAfterLookup
  dsimp only
  refine ⟨?_, ?_⟩ <;> split <;> omega

theorem State.maintWaitAfterHost_le (h : s.store.maintWait ≤ 16) : s.maintWaitAfterHost ≤ 16 := by
  unfold State.maintWaitAfterHost
  split <;> omega

/-- The wait counts are as before or back at 0. -/
def State.WaitsKept (s t : State) : Prop :=
  (t.store.hostWait = s.store.hostWait ∨ t.store.hostWait = 0) ∧
    (t.store.maintWait = s.store.maintWait ∨ t.store.maintWait = 0)

theorem State.WaitsKept.inRange (h : s.WaitsKept t) (hs : s.waitsInRange) : t.waitsInRange := by
  obtain ⟨hh, hm⟩ := h
  obtain ⟨hsh, hsm⟩ := hs
  exact ⟨by omega, by omega⟩

theorem State.waitsKept_of_eq (hh : t.store.hostWait = s.store.hostWait)
    (hm : t.store.maintWait = s.store.maintWait) : s.WaitsKept t := ⟨.inl hh, .inl hm⟩

theorem State.discardPrefetch_waitsKept (h : t.store = s.discardPrefetch) : s.WaitsKept t := by
  unfold State.WaitsKept
  rw [h]
  unfold State.discardPrefetch
  split
  · exact ⟨.inl rfl, .inl rfl⟩
  · split
    · exact ⟨.inr rfl, .inl rfl⟩
    · exact ⟨.inl rfl, .inl rfl⟩

theorem State.reportHostWrite_waitsKept (a : Addr) (d : Data) :
    s.WaitsKept (s.reportHostWrite a d) := by
  unfold State.reportHostWrite
  rcases (s.setSparing _).cancelStep_cases a with ⟨he, -⟩ | ⟨st, -, -, ⟨-, he⟩ | ⟨-, -, he⟩⟩ <;>
    rw [he]
  · exact State.waitsKept_of_eq rfl rfl
  · exact State.waitsKept_of_eq rfl rfl
  · exact ⟨.inl (by simp), .inr (by simp)⟩

theorem State.Quiet.waitsKept (h : s.Quiet o t) : s.WaitsKept t := by
  cases h with
  | pinReset => exact ⟨.inr rfl, .inr rfl⟩
  | powerOn => exact ⟨.inr rfl, .inr rfl⟩
  | _ => exact State.waitsKept_of_eq (by simp) (by simp)

theorem State.Active.waitsKept (h : s.Active o v) : s.WaitsKept v := by
  have hfiled : ∀ f, (s.setAccess none).Filed f → f.store = { s.store with access := none } :=
    fun f hf => hf.frame.1
  cases h with
  | drained r i ch b g q ha he hq =>
    rcases hq with rfl | rfl <;> exact State.waitsKept_of_eq (by simp) (by simp)
  | postNext => exact State.discardPrefetch_waitsKept (s := s.setAccess none) rfl
  | movePointer => exact State.discardPrefetch_waitsKept rfl
  | post => exact State.discardPrefetch_waitsKept rfl
  | wordEnd a c f j j' out ha hc hk hf =>
    exact State.waitsKept_of_eq (by simp [hfiled f hf]) (by simp [hfiled f hf])
  | wordNext a c f j j' ha hc hk hf =>
    exact State.waitsKept_of_eq (by simp [hfiled f hf]) (by simp [hfiled f hf])
  | retireAlloc r f op c ha hop hf =>
    exact State.waitsKept_of_eq (by simp [hfiled f hf]) (by simp [hfiled f hf])
  | retireNoSpare r f op ha hop hf =>
    rcases State.retireNoSpare_store (s := f) op r with h | h <;>
      exact State.waitsKept_of_eq (by simp [h, hfiled f hf]) (by simp [h, hfiled f hf])
  | patrolRead r f st n ha hst hf =>
    rcases State.patrolAct_store (s := f) st r n with h | h <;>
      exact State.waitsKept_of_eq (by simp [h, hfiled f hf]) (by simp [h, hfiled f hf])
  | softReset => exact ⟨.inr rfl, .inr rfl⟩
  | abort =>
    split
    · exact ⟨.inl (by simp), .inr (by simp)⟩
    · exact State.waitsKept_of_eq (by simp) (by simp)
  | _ => exact State.waitsKept_of_eq (by simp [State.endTableRead_eq]) (by simp [State.endTableRead_eq])

theorem State.Grant.waitsInRange (hg : s.Grant t) (h : s.waitsInRange) : t.waitsInRange := by
  have hlookup := State.waitsAfterLookup_le h
  obtain ⟨hh, hm⟩ := id h
  have hhost := State.maintWaitAfterHost_le hm
  cases hg with
  | lookup => exact hlookup
  | prefetch => exact ⟨Nat.zero_le 4, hhost⟩
  | refused => exact ⟨Nat.zero_le 4, hhost⟩
  | taken => exact ⟨Nat.zero_le 4, hhost⟩
  | reported p =>
    exact (State.reportHostWrite_waitsKept _ _).inRange ⟨Nat.zero_le 4, hhost⟩
  | _ => exact ⟨hh, Nat.zero_le 16⟩

theorem State.linkOpen_length (h : s.linkOpen = true) : s.link.queue.length < 8 := by
  simp only [State.linkOpen, Bool.and_eq_true, decide_eq_true_eq] at h
  obtain ⟨-, hlt⟩ := h
  exact hlt

theorem State.takeSlot_length : s.takeSlot.link.queue.length = s.link.queue.length := by
  rcases s.takeSlot_cases with h | ⟨pre, sl, post, d, n, -, hq, -, -, h⟩
  · rw [h]
  · rw [h, hq]
    simp

theorem finishReading_length (r : Response) (q : List Slot) :
    (finishReading r q).length = q.length := by
  induction q with
  | nil => rfl
  | cons sl rest ih =>
    unfold finishReading
    split <;> simp [ih]

theorem State.Quiet.queueBounded (h : s.Quiet o t) (hs : s.queueBounded) : t.queueBounded := by
  cases h with
  | pinReset => exact Nat.zero_le 8
  | powerOn => exact Nat.zero_le 8
  | delivery sl rest w hq hd =>
    simp only [State.queueBounded, hq, List.length_cons] at hs
    simp only [State.queueBounded, Link.refreshOffer_frame]
    omega
  | linkTimeout => simpa [State.queueBounded] using hs
  | _ => exact hs

theorem State.Active.queueBounded (h : s.Active o v) (hs : s.queueBounded) : v.queueBounded := by
  have hfiled : ∀ f, (s.setAccess none).Filed f → f.link = s.link := fun f hf => by
    obtain ⟨-, -, hl, -⟩ := hf.frame
    exact hl
  have hlink : ∀ {t : State}, t.link.queue.length = s.link.queue.length → t.queueBounded :=
    fun he => he.trans_le hs
  cases h with
  | answered w r h hl =>
    simpa [State.queueBounded] using State.linkOpen_length hl
  | frame w hl => simpa [State.queueBounded] using State.linkOpen_length hl
  | bind w hl =>
    have := State.linkOpen_length hl
    rw [State.queueBounded, State.takeSlot_length]
    simpa using this
  | linkReset => simp [State.queueBounded]
  | lastRead r i p ch n y =>
    obtain ⟨u, resp, hu, -, -, hq⟩ := State.completeLookup_takes
      (s := (s.setAccess none).fileRead r .lookup (some ch)) ch n p y
    refine hlink ?_
    rw [hu, State.takeSlot_length, hq, finishReading_length,
      hfiled _ (State.fileRead_filed r .lookup (some ch))]
  | drained r i ch b g q ha he hq =>
    refine hlink ?_
    rw [State.takeSlot_length]
    rcases hq with rfl | rfl <;> simp
  | wordEnd a c f j j' out ha hc hk hf => exact hlink (by simp [hfiled f hf])
  | wordNext a c f j j' ha hc hk hf => exact hlink (by simp [hfiled f hf])
  | retireAlloc r f op c ha hop hf => exact hlink (by simp [hfiled f hf])
  | retireNoSpare r f op ha hop hf => exact hlink (by simp [hfiled f hf])
  | patrolRead r f st n ha hst hf => exact hlink (by simp [hfiled f hf])
  | softReset => exact Nat.zero_le 8
  | abort => exact hlink (by split <;> simp)
  | _ => exact hlink (by simp [State.movePointer_eq, State.endTableRead_eq, State.postWrite_eq])

/-! ### The host's registers (R169, R173) -/

theorem HostPort.inRange_congr {h h' : HostPort} (hs : h.inRange) (ht : h'.timebase = h.timebase)
    (hw : h'.window = h.window) (hi : h'.index = h.index) : h'.inRange := by
  unfold HostPort.inRange
  rw [ht, hw, hi]
  exact hs

theorem State.Quiet.host_inRange (h : s.Quiet o t) (hs : s.host.inRange) : t.host.inRange := by
  have hreset : State.reset.host.inRange := ⟨⟨by decide, by decide⟩, by decide⟩
  cases h with
  | pinReset => exact hreset
  | powerOn => exact hreset
  | linkTimeout d =>
    obtain ⟨g, hg⟩ := State.checkStall_host (s := s.setLink { s.link with timeout := d })
    exact hg ▸ hs
  | registers h out hp => exact hp.range hs
  | channel ch c h hp => exact hp.range hs
  | errors q h hp => exact hp.range hs
  | popCompletion r rest h hp => exact hp.range hs
  | _ => exact hs

theorem State.Active.host_inRange (h : s.Active o v) (hs : s.host.inRange) : v.host.inRange := by
  have hflags : ∀ {u w : HostPort}, u.inRange → (∃ g, w = { u with flags := g }) → w.inRange :=
    fun hu ⟨g, hg⟩ => hg ▸ hu
  have hkept : ∀ {w : HostPort}, w.timebase = s.host.timebase → w.window = s.host.window →
      w.index = s.host.index → w.inRange := fun ht hw hi => HostPort.inRange_congr hs ht hw hi
  have hfiled : ∀ f, (s.setAccess none).Filed f → f.host.inRange := fun f hf => hflags hs hf.host
  cases h with
  | answered w r h hl hp => simpa using hp.range hs
  | frame w => exact hflags hs (State.acceptFrame_host w)
  | linkReset => exact hflags hs (State.discardSlots_host (s := s))
  | firstRead r i p ch =>
    simpa using hfiled _ (State.fileRead_filed r .lookup (some ch))
  | lastRead r i p ch n y =>
    exact hflags (hfiled _ (State.fileRead_filed r .lookup (some ch)))
      (State.completeLookup_host _ _ _ _)
  | drained r i ch b g q ha he hq =>
    simp only [State.takeSlot_frame]
    rcases hq with rfl | rfl
    · exact hs
    · exact hflags hs (State.drainStale_host r ch g)
  | prefetched r i =>
    obtain ⟨-, ht, hw, hi, -⟩ := State.prefetchDone_host (s := s.setAccess none) r i
    exact hkept ht hw hi
  | wordEnd a c f j j' out ha hc hk hf => simpa using hfiled f hf
  | wordNext a c f j j' ha hc hk hf => exact hfiled f hf
  | retireAlloc r f op c ha hop hf => exact hfiled f hf
  | retireNoSpare r f op ha hop hf =>
    refine HostPort.inRange_congr (hfiled f hf) ?_ ?_ ?_ <;> simp only [State.retireNoSpare_frame]
  | commit k op c =>
    simp only [State.retireDone_frame]
    exact hflags hs (State.mapCommit_host _ _)
  | patrolRead r f st n ha hst hf => simpa using hfiled f hf
  | movePointer => exact hkept rfl rfl rfl
  | tableRead => exact hkept rfl rfl rfl
  | post => exact hkept rfl rfl rfl
  | postNext => exact hkept rfl rfl rfl
  | softReset => exact hkept rfl rfl rfl
  | abort => split <;> exact hkept (by simp) (by simp) (by simp)
  | _ => exact hkept (by simp) (by simp) (by simp)

theorem State.Grant.host_inRange (hg : s.Grant t) (hs : s.host.inRange) : t.host.inRange := by
  cases hg with
  | reported p => simpa [State.takenWrite] using hs
  | _ => exact hs

/-! ### The patrol's timer and share (R14, R144, R145) -/

/-- A pacing patrol's interval is still ahead. -/
def Patrol.inTime (p : Patrol) : Prop := p.phase = .pacing → ∀ t ∈ p.timer, t < p.interval.toNat

/-- The share is kept and a pacing patrol's interval is ahead if it was. -/
def Patrol.Follows (p q : Patrol) : Prop := q.share = p.share ∧ (p.inTime → q.inTime)

theorem Patrol.Follows.refl (p : Patrol) : p.Follows p := ⟨rfl, id⟩

theorem Patrol.Follows.trans {p q r : Patrol} (h : p.Follows q) (h' : q.Follows r) : p.Follows r :=
  ⟨h'.1.trans h.1, fun hp => h'.2 (h.2 hp)⟩

theorem Patrol.follows_of_eq {p q : Patrol} (h : q = p) : p.Follows q := h ▸ .refl p

theorem Patrol.inTime_of_not_pacing {p : Patrol} (h : p.phase ≠ .pacing) : p.inTime :=
  fun hp => absurd hp h

theorem Patrol.resume_follows (p : Patrol) (b : Bool) : p.Follows (p.resume b) := by
  unfold Patrol.resume
  split
  · exact ⟨rfl, fun _ => Patrol.inTime_of_not_pacing nofun⟩
  · split
    · exact ⟨rfl, fun _ => Patrol.inTime_of_not_pacing nofun⟩
    · split
      · exact ⟨rfl, fun _ => Patrol.inTime_of_not_pacing nofun⟩
      · next hi =>
        refine ⟨rfl, fun _ _ t ht => ?_⟩
        cases ht
        rw [← ne_eq, ← BitVec.toNat_ne_iff_ne] at hi
        exact Nat.pos_of_ne_zero hi

theorem Patrol.yieldToJob_follows (p : Patrol) : p.Follows p.yieldToJob := by
  unfold Patrol.yieldToJob
  split
  · exact ⟨rfl, fun _ => Patrol.inTime_of_not_pacing nofun⟩
  · exact .refl p

theorem State.leaveYielding_follows : s.patrol.Follows s.leaveYielding.patrol := by
  rw [State.leaveYielding_eq]
  split
  · exact Patrol.resume_follows _ _
  · exact .refl _

theorem State.endJob_follows (j : RunningJob) (out : JobOutcome) (k : Option SlotNo) :
    s.patrol.Follows (s.endJob j out k).patrol := by
  unfold State.endJob
  exact Patrol.Follows.trans (Patrol.follows_of_eq (by simp)) State.leaveYielding_follows

theorem State.endStep_follows : s.patrol.Follows s.endStep.patrol := by
  unfold State.endStep
  have hadvance : s.patrol.Follows s.patrol.advance := ⟨rfl, id⟩
  refine hadvance.trans (Patrol.Follows.trans (Patrol.follows_of_eq ?_) (Patrol.resume_follows _ _))
  simp

theorem State.endRetireJob_follows (r : ReadOutcome) (out : JobOutcome) (k : Option SlotNo) :
    s.patrol.Follows (s.endRetireJob r out k).patrol := by
  unfold State.endRetireJob
  split
  · exact State.endJob_follows (s := s.clearRetire.releaseMark) _ _ _
  · exact .refl _

theorem State.patrolNoSpare_follows (r : ReadResult) :
    s.patrol.Follows (s.patrolNoSpare r).patrol := by
  unfold State.patrolNoSpare
  split
  · split
    · exact State.endStep_follows (s := s.clearRetire)
    · exact ⟨rfl, id⟩
  · exact .refl _

theorem State.retireNoSpare_follows (op : RetireOp) (r : ReadResult) :
    s.patrol.Follows (s.retireNoSpare op r).patrol := by
  unfold State.retireNoSpare
  split
  · exact State.endRetireJob_follows (s := s.raiseSparesExhausted) _ _ _
  · exact State.patrolNoSpare_follows (s := s.raiseSparesExhausted) _

theorem State.retireDone_follows (op : RetireOp) (c : RetireCopy) :
    s.patrol.Follows (s.retireDone op c).patrol := by
  unfold State.retireDone
  split
  · exact State.endRetireJob_follows _ _ _
  · exact State.endStep_follows (s := s.clearRetire)

theorem State.patrolAct_follows (st : PatrolStep) (r : ReadResult) (n : Option (BitVec 8)) :
    s.patrol.Follows (s.patrolAct st r n).patrol := by
  unfold State.patrolAct
  dsimp only
  split
  · split <;> exact ⟨rfl, fun _ => Patrol.inTime_of_not_pacing nofun⟩
  · exact State.endStep_follows

theorem State.reportHostWrite_follows (a : Addr) (d : Data) :
    s.patrol.Follows (s.reportHostWrite a d).patrol := by
  unfold State.reportHostWrite
  rcases (s.setSparing _).cancelStep_cases a with ⟨he, -⟩ | ⟨st, -, -, ⟨-, he⟩ | ⟨-, -, he⟩⟩ <;>
    rw [he]
  · exact .refl _
  · exact ⟨rfl, id⟩
  · refine Patrol.Follows.trans ?_ State.endStep_follows
    exact .refl _

theorem State.Grant.patrol_follows (hg : s.Grant t) : s.patrol.Follows t.patrol := by
  cases hg with
  | reported p => exact State.reportHostWrite_follows (s := s.takenWrite p) _ _
  | patrolRead => exact ⟨rfl, fun _ => Patrol.inTime_of_not_pacing nofun⟩
  | _ => exact .refl _

theorem State.Quiet.patrol_cases (h : s.Quiet o t) :
    t.patrol = State.reset.patrol ∨ s.patrol.Follows t.patrol := by
  cases h with
  | pinReset => exact .inl rfl
  | powerOn => exact .inl rfl
  | fillLast => exact .inr (Patrol.resume_follows _ _)
  | linkTimeout => exact .inr (Patrol.follows_of_eq (by simp))
  | _ => exact .inr (.refl _)

/-- But for the timers' event, which has its own checks, and a write of PATROL_CTRL. -/
theorem State.Active.patrol_cases (h : s.Active o v) : s.patrol.Follows v.patrol ∨
    (s.patrol.Paced v.patrol ∧ (s.timersNotOverdue → v.timersNotOverdue)) ∨
    ∃ d : Data, (s.patrol.writeCtrl d).Follows v.patrol := by
  have hfiled : ∀ f, (s.setAccess none).Filed f → f.patrol = s.patrol := fun f hf => by
    obtain ⟨-, -, -, -, -, -, hp, -⟩ := hf.frame
    exact hp
  cases h with
  | timers st p f hs hp hover => exact .inr (.inl ⟨hp, hover⟩)
  | patrolCtrl d =>
    refine .inr (.inr ⟨d, ?_⟩)
    rcases State.actOnEnable_cases (s := s.setPatrol (s.patrol.writeCtrl d)) with h | ⟨-, -, h⟩ <;>
      rw [h]
    · exact .refl _
    · exact Patrol.resume_follows _ _
  | drained r i ch b g q ha he hq =>
    refine .inl (Patrol.follows_of_eq ?_)
    rcases hq with rfl | rfl <;> simp
  | wordEnd a c f j j' out ha hc hk hf => exact .inl (hfiled f hf ▸ State.endJob_follows _ _ _)
  | wordNext a c f j j' ha hc hk hf => exact .inl (Patrol.follows_of_eq (hfiled f hf))
  | retireAlloc r f op c ha hop hf => exact .inl (Patrol.follows_of_eq (hfiled f hf))
  | retireNoSpare r f op ha hop hf => exact .inl (hfiled f hf ▸ State.retireNoSpare_follows _ _)
  | commit k op c =>
    refine .inl (Patrol.Follows.trans (Patrol.follows_of_eq ?_) (State.retireDone_follows op c))
    simp
  | patrolRead r f st n ha hst hf => exact .inl (hfiled f hf ▸ State.patrolAct_follows _ _ _)
  | writeBack => exact .inl (State.endStep_follows (s := s.setAccess none))
  | job kind start count value =>
    refine .inl ((Patrol.yieldToJob_follows _).trans (Patrol.follows_of_eq ?_))
    simp
  | abort =>
    refine .inl (Patrol.Follows.trans (Patrol.follows_of_eq ?_) State.leaveYielding_follows)
    split <;> simp
  | softReset => exact .inl ⟨rfl, fun _ => Patrol.inTime_of_not_pacing nofun⟩
  | _ =>
    exact .inl (Patrol.follows_of_eq
      (by simp [State.movePointer_eq, State.endTableRead_eq, State.postWrite_eq]))

/-- MAINT_SHARE takes no value but 1 to 16 (R14). -/
theorem Patrol.writeCtrl_share (p : Patrol) (d : Data)
    (h : 1 ≤ p.share.toNat ∧ p.share.toNat ≤ 16) :
    1 ≤ (p.writeCtrl d).share.toNat ∧ (p.writeCtrl d).share.toNat ≤ 16 := by
  unfold Patrol.writeCtrl
  dsimp only
  split
  · assumption
  · exact h

theorem Patrol.paced_share {p q : Patrol} (h : p.Paced q) : q.share = p.share := by
  obtain ⟨i, ⟨t, -, rfl⟩ | ⟨-, rfl⟩⟩ := h <;> rfl

/-- MAINT_SHARE lies in 1–16 (R14). -/
def Patrol.shareValid (p : Patrol) : Prop := 1 ≤ p.share.toNat ∧ p.share.toNat ≤ 16

theorem Patrol.shareValid_of_eq {p q : Patrol} (h : p.shareValid) (he : q.share = p.share) :
    q.shareValid := by
  unfold Patrol.shareValid
  rw [he]
  exact h

theorem State.Quiet.shareValid (h : s.Quiet o t) (hs : s.patrol.shareValid) :
    t.patrol.shareValid := by
  rcases h.patrol_cases with he | ⟨he, -⟩
  · rw [he]
    exact ⟨by decide, by decide⟩
  · exact Patrol.shareValid_of_eq hs he

theorem State.Active.shareValid (h : s.Active o v) (hs : s.patrol.shareValid) :
    v.patrol.shareValid := by
  rcases h.patrol_cases with ⟨he, -⟩ | ⟨hp, -⟩ | ⟨d, he, -⟩
  · exact Patrol.shareValid_of_eq hs he
  · exact Patrol.shareValid_of_eq hs (Patrol.paced_share hp)
  · exact Patrol.shareValid_of_eq (Patrol.writeCtrl_share _ d hs) he

/-- Each register with restricted values holds one of them. -/
theorem State.registersInRange_iff :
    s.registersInRange ↔ s.host.inRange ∧ s.patrol.shareValid := by
  unfold State.registersInRange HostPort.inRange Patrol.shareValid
  tauto

/-! ### The stall timer (R61, R62) -/

/-- The stall timer has expired for this head, or LINK_TIMEOUT is 0 or still ahead. -/
def Link.inTime (l : Link) : Prop :=
  ∀ u ∈ l.stall, u.expired = true ∨ l.timeout = 0 ∨ u.elapsed < l.timeout.toNat

theorem State.timersNotOverdue_iff : s.timersNotOverdue ↔ s.link.inTime ∧ s.patrol.inTime := Iff.rfl

theorem Link.inTime_of_none {l : Link} (h : l.stall = none) : l.inTime := fun u hu => by
  rw [h] at hu; cases hu

theorem Link.inTime_of_eq {l l' : Link} (h : l.inTime) (hs : l'.stall = l.stall)
    (ht : l'.timeout = l.timeout) : l'.inTime := by
  unfold Link.inTime
  rw [hs, ht]
  exact h

/-- An offer that begins has its whole time ahead (R61). -/
theorem Link.refreshOffer_inTime {l : Link} (h : l.inTime) : l.refreshOffer.inTime := by
  intro u hu
  rw [Link.refreshOffer_eq] at hu ⊢
  dsimp only at hu ⊢
  split at hu
  · cases hs : l.stall with
    | some w =>
      rw [hs] at hu
      cases hu
      exact h w hs
    | none =>
      rw [hs] at hu
      cases hu
      by_cases ht : l.timeout = 0
      · exact .inr (.inl ht)
      · rw [← ne_eq, ← BitVec.toNat_ne_iff_ne] at ht
        exact .inr (.inr (Nat.pos_of_ne_zero ht))
  · cases hu

theorem State.Quiet.link_inTime (h : s.Quiet o t) (hs : s.link.inTime) : t.link.inTime := by
  cases h with
  | pinReset => exact Link.inTime_of_none rfl
  | powerOn => exact Link.inTime_of_none rfl
  | delivery sl rest w hq hd => exact Link.refreshOffer_inTime (Link.inTime_of_none rfl)
  | linkTimeout d =>
    intro u hu
    simpa using State.checkStall_notOverdue u hu
  | _ => exact hs

theorem State.Active.link_inTime (h : s.Active o v) (hs : s.timersNotOverdue) : v.link.inTime := by
  obtain ⟨hl, -⟩ := State.timersNotOverdue_iff.1 hs
  have hfiled : ∀ f, (s.setAccess none).Filed f → f.link = s.link := fun f hf => by
    obtain ⟨-, -, hl, -⟩ := hf.frame
    exact hl
  have hlink : ∀ {l : Link}, l = s.link → l.inTime := fun he => he ▸ hl
  have hpush : ∀ {u : State} (w p), u.link.inTime → (u.pushSlot w p).link.inTime := fun w p hu =>
    Link.refreshOffer_inTime hu
  have htake : ∀ {u : State}, u.link.inTime → u.takeSlot.link.inTime := fun hu =>
    Link.inTime_of_eq hu (by simp) (by simp)
  cases h with
  | answered w r h => exact hpush w _ hl
  | frame w =>
    refine hpush w _ (Link.inTime_of_eq hl ?_ ?_) <;> simp
  | bind w => exact htake (hpush w _ hl)
  | timers st p f hst hp hover => exact (State.timersNotOverdue_iff.1 (hover hs)).1
  | linkReset => exact Link.inTime_of_none (by simp)
  | lastRead r i p ch n y =>
    unfold State.completeLookup
    refine htake (Link.refreshOffer_inTime (Link.inTime_of_eq hl ?_ ?_)) <;> simp
  | drained r i ch b g q ha he hq =>
    refine htake (hlink ?_)
    rcases hq with rfl | rfl <;> simp
  | wordEnd a c f j j' out ha hc hk hf => exact hlink (by simp [hfiled f hf])
  | wordNext a c f j j' ha hc hk hf => exact hlink (hfiled f hf)
  | retireAlloc r f op c ha hop hf => exact hlink (hfiled f hf)
  | retireNoSpare r f op ha hop hf => exact hlink (by simp [hfiled f hf])
  | patrolRead r f st n ha hst hf => exact hlink (by simp [hfiled f hf])
  | softReset => exact Link.inTime_of_none rfl
  | abort => exact hlink (by split <;> simp)
  | _ => exact hlink (by simp [State.movePointer_eq, State.endTableRead_eq, State.postWrite_eq])

theorem State.Quiet.timersNotOverdue (h : s.Quiet o t) (hs : s.timersNotOverdue) :
    t.timersNotOverdue := by
  obtain ⟨hl, hp⟩ := State.timersNotOverdue_iff.1 hs
  refine State.timersNotOverdue_iff.2 ⟨h.link_inTime hl, ?_⟩
  rcases h.patrol_cases with he | ⟨-, hq⟩
  · rw [he]
    exact Patrol.inTime_of_not_pacing nofun
  · exact hq hp

theorem State.Active.timersNotOverdue (h : s.Active o v) (hs : s.timersNotOverdue) :
    v.timersNotOverdue := by
  obtain ⟨hl, hp⟩ := State.timersNotOverdue_iff.1 hs
  refine State.timersNotOverdue_iff.2 ⟨h.link_inTime hs, ?_⟩
  rcases h.patrol_cases with ⟨-, hq⟩ | ⟨-, hover⟩ | ⟨d, -, hq⟩
  · exact hq hp
  · exact (State.timersNotOverdue_iff.1 (hover hs)).2
  · exact hq hp

theorem State.Grant.timersNotOverdue (hg : s.Grant t) (hs : s.timersNotOverdue) :
    t.timersNotOverdue := by
  obtain ⟨hl, hp⟩ := State.timersNotOverdue_iff.1 hs
  obtain ⟨-, hlink, -⟩ := hg.frame
  exact State.timersNotOverdue_iff.2 ⟨hlink ▸ hl, hg.patrol_follows.2 hp⟩

/-- The counts and the registers of the first part of O53. -/
def State.countsInRange (s : State) : Prop :=
  s.waitsInRange ∧ s.queueBounded ∧ s.host.inRange ∧ s.patrol.shareValid

theorem countsInRange_of_step (h : step s = .next t) (hs : s.countsInRange) : t.countsInRange := by
  refine step_keeps (P := State.countsInRange) (fun s h => h) (fun s t _ _ hg hs => ?_)
    (fun o s t hq hs => ?_) (fun o s v hv hs => ?_) h hs <;> obtain ⟨hw, hq', hh, hp⟩ := hs
  · obtain ⟨-, hl, -⟩ := hg.frame
    exact ⟨hg.waitsInRange hw, by rw [State.queueBounded, hl]; exact hq', hg.host_inRange hh,
      Patrol.shareValid_of_eq hp hg.patrol_follows.1⟩
  · exact ⟨hq.waitsKept.inRange hw, hq.queueBounded hq', hq.host_inRange hh, hq.shareValid hp⟩
  · exact ⟨hv.waitsKept.inRange hw, hv.queueBounded hq', hv.host_inRange hh, hv.shareValid hp⟩

end

end Sys2Proof.Machine

namespace Sys2Proof.Machine

/-! PROOFS. START_UP, in which every block but the fill is idle, and the accesses that READY stretches
(2.7, 10.1). -/

section
variable {s t v f : State} {o : Option Instr}

/-! ### What START_UP leaves to do -/

/-- The part of the state that START_UP holds idle (Table 2-10). -/
structure State.IdleBlocks (s : State) : Prop where
  access : s.store.access = none
  queue : s.link.queue = []
  engine : s.engine = .idle
  records : s.errors.records = []
  retire : s.sparing.retire = none
  jobs : s.maint.queue = []
  run : s.maint.run = none
  completions : s.maint.completions = []
  phase : s.patrol.phase = .off
  step : s.patrol.step = none
  holder : s.host.holder = .empty
  posted : s.host.posted = none
  stretch : s.host.stretch = none
  channels : ∀ c ∈ s.channels.toList, c.state = .disabled ∧ c.armed = false

theorem State.startUpQuiet_iff : s.startUpQuiet ↔
    (s.store.device = .startUp →
      s.IdleBlocks ∧ (s.store.fill.isSome ↔ s.store.resetAsserted = false)) ∧
    (s.store.device = .running → s.store.fill = none ∧ s.store.resetAsserted = false) := by
  constructor
  · rintro ⟨hup, hrun⟩
    refine ⟨fun hd => ?_, hrun⟩
    obtain ⟨h1, h2, h3, h4, h5, h6, h7, h8, h9, h10, h11, h12, h13, h14, hf⟩ := hup hd
    exact ⟨⟨h1, h2, h3, h4, h5, h6, h7, h8, h9, h10, h11, h12, h13, h14⟩, hf⟩
  · rintro ⟨hup, hrun⟩
    refine ⟨fun hd => ?_, hrun⟩
    obtain ⟨⟨h1, h2, h3, h4, h5, h6, h7, h8, h9, h10, h11, h12, h13, h14⟩, hf⟩ := hup hd
    exact ⟨h1, h2, h3, h4, h5, h6, h7, h8, h9, h10, h11, h12, h13, h14, hf⟩

theorem State.idleBlocks_reset (s : State) (m : List (Nat × StoredWord)) (k : Option Nat)
    (b : Bool) : (s.deviceReset m k b).IdleBlocks where
  access := rfl
  queue := rfl
  engine := rfl
  records := rfl
  retire := rfl
  jobs := rfl
  run := rfl
  completions := rfl
  phase := rfl
  step := rfl
  holder := rfl
  posted := rfl
  stretch := rfl
  channels := fun c hc => by
    rw [List.eq_of_mem_replicate
      (by simpa [State.deviceReset, State.reset] using hc : c ∈ List.replicate 16 _)]
    exact ⟨rfl, rfl⟩

theorem State.linkOpen_running (h : s.linkOpen = true) : s.store.device = .running := by
  simp only [State.linkOpen, Bool.and_eq_true, beq_iff_eq] at h
  obtain ⟨⟨⟨hd, -⟩, -⟩, -⟩ := h
  exact hd

theorem State.actOnEnable_of_startUp (hd : s.store.device = .startUp) :
    s.actOnEnable = s := by
  unfold State.actOnEnable
  rw [hd]

theorem Patrol.paced_off {p q : Patrol} (h : p.Paced q) (hp : p.phase = .off) :
    q.phase = .off ∧ q.step = p.step := by
  obtain ⟨i, ⟨t, -, rfl⟩ | ⟨hc, -⟩⟩ := h
  · exact ⟨hp, rfl⟩
  · cases hp.symm.trans hc

/-- In START_UP LINK_RST finds no slot to discard. -/
theorem State.IdleBlocks.linkReset (hi : s.IdleBlocks) (l : Link) (hl : l.queue = []) :
    (s.discardSlots.setLink l).IdleBlocks := by
  have hreport : s.reportDiscard = s := by
    rw [State.reportDiscard, hi.queue]
    rfl
  have he : s.dropEngine = .idle := by rw [State.dropEngine, hi.engine]
  have ha : s.accessAfterLinkReset = none := by
    rw [State.accessAfterLinkReset, hi.engine]
    exact hi.access
  have hs : s.discardSlots.setLink l = { s with
      store := { s.store with access := none }, engine := .idle, link := l } := by
    rw [State.discardSlots, hreport, ha, he]
    rfl
  rw [hs]
  exact { hi with access := rfl, engine := rfl, queue := hl }

/-- In START_UP the timers, LINK_RST and PATROL_CTRL are all that acts, and they leave the blocks idle. -/
theorem State.Active.idleBlocks (h : s.Active o v) (hd : s.store.device = .startUp)
    (hi : s.IdleBlocks) : v.IdleBlocks := by
  have hbusy : ∀ {a : Access}, s.store.access = some a → v.IdleBlocks := fun ha => by
    rw [hi.access] at ha
    cases ha
  have hrun : s.store.device = .running → v.IdleBlocks := fun hr => by
    rw [hd] at hr
    cases hr
  cases h with
  | answered w r h hl => exact hrun (State.linkOpen_running hl)
  | frame w hl => exact hrun (State.linkOpen_running hl)
  | bind w hl => exact hrun (State.linkOpen_running hl)
  | timers st p f hs hp =>
    obtain ⟨hph, hst⟩ := Patrol.paced_off hp hi.phase
    exact { hi with phase := hph, step := hst.trans hi.step }
  | linkReset => exact hi.linkReset _ (by simp)
  | patrolCtrl d =>
    have hp : (s.setPatrol (s.patrol.writeCtrl d)).IdleBlocks := { hi with }
    rw [State.actOnEnable_of_startUp (s := s.setPatrol (s.patrol.writeCtrl d)) hd]
    exact hp
  | firstRead r i p ch n ha => exact hbusy ha
  | lastRead r i p ch n y ha => exact hbusy ha
  | drained r i ch b g q ha => exact hbusy ha
  | prefetched r i ha => exact hbusy ha
  | postDone k i ha => exact hbusy ha
  | postNext k i w ha => exact hbusy ha
  | freed a c ha => exact hbusy ha
  | wordEnd a c f j j' out ha => exact hbusy ha
  | wordNext a c f j j' ha => exact hbusy ha
  | retireAlloc r f op c ha => exact hbusy ha
  | retireNoSpare r f op ha => exact hbusy ha
  | commit k op c ha => exact hbusy ha
  | patrolRead r f st n ha => exact hbusy ha
  | writeBack k st ha => exact hbusy ha
  | movePointer a hr => exact hrun hr
  | tableRead d hr => exact hrun hr
  | tableStart hr => exact hrun hr
  | post w hr => exact hrun hr
  | job kind start count value hr => exact hrun hr
  | abort hr => exact hrun hr
  | softReset hr => exact hrun hr

theorem State.IdleBlocks.checkStall (hi : s.IdleBlocks) : s.checkStall.IdleBlocks := by
  obtain ⟨g, hg⟩ := State.checkStall_host (s := s)
  have hc := State.checkStall_frame (s := s)
  obtain ⟨hst, hch, hen, her, hsp, hma, hpa, -, -, -, hq, -⟩ := hc
  constructor <;> simp only [hst, hch, hen, her, hsp, hma, hpa, hq, hg]
  case access => exact hi.access
  case queue => exact hi.queue
  case engine => exact hi.engine
  case records => exact hi.records
  case retire => exact hi.retire
  case jobs => exact hi.jobs
  case run => exact hi.run
  case completions => exact hi.completions
  case phase => exact hi.phase
  case step => exact hi.step
  case holder => exact hi.holder
  case posted => exact hi.posted
  case stretch => exact hi.stretch
  case channels => exact hi.channels

theorem State.IdleBlocks.setHost (hi : s.IdleBlocks) {h : HostPort} (hp : s.host.SamePort h) :
    ({ s with host := h } : State).IdleBlocks :=
  { hi with
    holder := hp.holder.trans hi.holder
    posted := hp.posted.trans hi.posted
    stretch := hp.stretch.trans hi.stretch }

/-- Without the arbiter's turn, too, START_UP leaves the blocks idle until the last fill write. -/
theorem State.Quiet.idleBlocks (h : s.Quiet o t) (hd : s.store.device = .startUp)
    (hi : s.IdleBlocks) (ht : t.store.device = .startUp) : t.IdleBlocks := by
  cases h with
  | nothing => exact hi
  | pinReset => exact State.idleBlocks_reset _ _ _ _
  | powerOn => exact State.idleBlocks_reset _ _ _ _
  | release => exact { hi with }
  | fillNext => exact { hi with }
  | fillLast => cases ht
  | disturb => exact { hi with }
  | delivery sl rest w hq =>
    rw [hi.queue] at hq
    cases hq
  | linkRstRelease => exact { hi with }
  | linkEnable => exact { hi with }
  | linkTimeout d =>
    have hl : (s.setLink { s.link with timeout := d }).IdleBlocks := { hi with }
    exact hl.checkStall
  | stretch st hr => rw [hd] at hr; cases hr
  | registers h out hp => exact { hi.setHost hp with }
  | channel ch c h hp hc =>
    obtain ⟨hst, har⟩ := hc.idle hd
    obtain ⟨hst', har'⟩ := hi.channels _ (State.channel_mem ch)
    exact { hi.setHost hp with
      channels := Vector.forall_mem_set hi.channels ⟨hst.trans hst', har.trans har'⟩ }
  | args => exact { hi with }
  | errors q h hp hq =>
    refine { hi.setHost hp with records := ?_ }
    rw [hi.records] at hq
    exact List.suffix_nil.1 hq
  | popCompletion r rest h hp hr =>
    rw [hi.completions] at hr
    cases hr

/-! ### START_UP and RUNNING -/

theorem State.Quiet.startUpQuiet (h : s.Quiet o t) (hs : s.startUpQuiet) : t.startUpQuiet := by
  rw [State.startUpQuiet_iff] at hs ⊢
  obtain ⟨hup, hrun⟩ := hs
  have hkept : t.store.device = s.store.device → t.store.fill = s.store.fill →
      t.store.resetAsserted = s.store.resetAsserted →
      (t.store.device = .startUp →
        t.IdleBlocks ∧ (t.store.fill.isSome ↔ t.store.resetAsserted = false)) ∧
      (t.store.device = .running → t.store.fill = none ∧ t.store.resetAsserted = false) := by
    intro hd hf hr
    rw [hf, hr]
    refine ⟨fun ht => ?_, fun ht => hrun (hd ▸ ht)⟩
    obtain ⟨hi, hfill⟩ := hup (hd ▸ ht)
    exact ⟨h.idleBlocks (hd ▸ ht) hi ht, hfill⟩
  cases h with
  | pinReset =>
    exact ⟨fun _ => ⟨State.idleBlocks_reset _ _ _ _, by simp [State.deviceReset]⟩, nofun⟩
  | powerOn =>
    exact ⟨fun _ => ⟨State.idleBlocks_reset _ _ _ _, by simp [State.deviceReset]⟩, nofun⟩
  | release h =>
    refine ⟨fun hd => ?_, fun hd => ?_⟩
    · obtain ⟨hi, -⟩ := hup hd
      exact ⟨{ hi with }, by simp⟩
    · obtain ⟨-, hr⟩ := hrun hd
      rw [h] at hr
      cases hr
  | fillNext k hf =>
    refine ⟨fun hd => ?_, fun hd => ?_⟩
    · obtain ⟨hi, hfill⟩ := hup hd
      rw [hf] at hfill
      exact ⟨{ hi with }, hfill⟩
    · obtain ⟨hn, -⟩ := hrun hd
      rw [hf] at hn
      cases hn
  | fillLast k hf =>
    refine ⟨nofun, fun _ => ⟨rfl, ?_⟩⟩
    cases hd : s.store.device with
    | startUp =>
      obtain ⟨-, hfill⟩ := hup hd
      rw [hf] at hfill
      exact hfill.1 rfl
    | running => exact (hrun hd).2
  | linkTimeout d => exact hkept (by simp) (by simp) (by simp)
  | _ => exact hkept rfl rfl rfl

theorem State.Active.startUpQuiet (h : s.Active o v) (hs : s.startUpQuiet) : v.startUpQuiet := by
  rw [State.startUpQuiet_iff] at hs ⊢
  obtain ⟨hup, hrun⟩ := hs
  obtain ⟨-, hd, hf, hr⟩ := h.store_frame
  rw [hd, hf, hr]
  refine ⟨fun hst => ?_, hrun⟩
  obtain ⟨hi, hfill⟩ := hup hst
  exact ⟨h.idleBlocks hst hi, hfill⟩

theorem State.Grant.startUpQuiet (hg : s.Grant t) (hd : s.store.device = .running)
    (hs : s.startUpQuiet) : t.startUpQuiet := by
  obtain ⟨-, -, -, -, -, -, -, -, hdev, hf, hr⟩ := hg.frame
  obtain ⟨-, hrun⟩ := hs
  refine ⟨fun h => ?_, fun h => ?_⟩
  · rw [hdev, hd] at h
    cases h
  · rw [hf, hr]
    exact hrun hd

/-! ### Stretched accesses (R157) -/

/-- What a stretched access waits for is there. -/
def HostPort.waits (h : HostPort) : Prop :=
  (h.stretch = some .read → h.holder = .pending) ∧
    ∀ v, h.stretch = some (.write v) → h.posted.isSome = true

theorem HostPort.waits_of_free {h : HostPort} (hs : h.stretch = none) : h.waits := by
  simp [HostPort.waits, hs]

theorem HostPort.waits_congr {h h' : HostPort} (hw : h.waits) (hs : h'.stretch = h.stretch)
    (hh : h'.holder = h.holder) (hp : h'.posted = h.posted) : h'.waits := by
  unfold HostPort.waits
  rw [hs, hh, hp]
  exact hw

theorem HostPort.SamePort.waits {h h' : HostPort} (hp : h.SamePort h') (hw : h.waits) : h'.waits :=
  HostPort.waits_congr hw hp.stretch hp.holder hp.posted

theorem State.Quiet.waits (h : s.Quiet o t) (hs : s.host.waits) : t.host.waits := by
  cases h with
  | pinReset => exact HostPort.waits_of_free rfl
  | powerOn => exact HostPort.waits_of_free rfl
  | linkTimeout d =>
    obtain ⟨g, hg⟩ := State.checkStall_host (s := s.setLink { s.link with timeout := d })
    exact hg ▸ hs
  | stretch st hd hn hr hw =>
    refine ⟨fun h => hr (Option.some.inj h), fun v h => hw v (Option.some.inj h)⟩
  | registers h out hp => exact hp.waits hs
  | channel ch c h hp => exact hp.waits hs
  | errors q h hp => exact hp.waits hs
  | popCompletion r rest h hp => exact hp.waits hs
  | _ => exact hs

theorem State.Active.waits (h : s.Active o v) (hs : s.host.waits) : v.host.waits := by
  have hflags : ∀ {u w : HostPort}, u.waits → (∃ g, w = { u with flags := g }) → w.waits :=
    fun hu ⟨g, hg⟩ => hg ▸ hu
  have hkept : ∀ {w : HostPort}, w.stretch = s.host.stretch → w.holder = s.host.holder →
      w.posted = s.host.posted → w.waits := fun ht hw hi => HostPort.waits_congr hs ht hw hi
  have hfiled : ∀ f, (s.setAccess none).Filed f → f.host.waits := fun f hf => hflags hs hf.host
  cases h with
  | answered w r h hl hp => simpa using hp.waits hs
  | frame w => exact hflags hs (State.acceptFrame_host w)
  | linkReset => exact hflags hs (State.discardSlots_host (s := s))
  | firstRead r i p ch =>
    simpa using hfiled _ (State.fileRead_filed r .lookup (some ch))
  | lastRead r i p ch n y =>
    exact hflags (hfiled _ (State.fileRead_filed r .lookup (some ch)))
      (State.completeLookup_host _ _ _ _)
  | drained r i ch b g q ha he hq =>
    simp only [State.takeSlot_frame]
    rcases hq with rfl | rfl
    · exact hs
    · exact hflags hs (State.drainStale_host r ch g)
  | prefetched r i =>
    obtain ⟨hr, hw⟩ := hs
    obtain ⟨hp, -, -, -, hread, hwrite⟩ := State.prefetchDone_host (s := s.setAccess none) r i
    refine ⟨fun h => ?_, fun v h => ?_⟩
    · obtain ⟨hh, hst⟩ := hread h
      exact hh.trans (hr hst)
    · rw [hp]
      exact hw v (hwrite v h)
  | postDone k i ha hst =>
    exact ⟨hs.1, fun v h => absurd h (hst v)⟩
  | wordEnd a c f j j' out ha hc hk hf => simpa using hfiled f hf
  | wordNext a c f j j' ha hc hk hf => exact hfiled f hf
  | retireAlloc r f op c ha hop hf => exact hfiled f hf
  | retireNoSpare r f op ha hop hf =>
    refine HostPort.waits_congr (hfiled f hf) ?_ ?_ ?_ <;> simp only [State.retireNoSpare_frame]
  | commit k op c =>
    simp only [State.retireDone_frame]
    exact hflags hs (State.mapCommit_host _ _)
  | patrolRead r f st n ha hst hf => simpa using hfiled f hf
  | postNext => exact HostPort.waits_of_free rfl
  | movePointer a hd hst => exact HostPort.waits_of_free hst
  | tableRead => exact HostPort.waits_of_free rfl
  | tableStart => exact ⟨fun _ => rfl, nofun⟩
  | post => exact HostPort.waits_of_free rfl
  | softReset hd hst => exact HostPort.waits_of_free hst
  | abort => split <;> exact hkept (by simp) (by simp) (by simp)
  | _ => exact hkept (by simp) (by simp) (by simp)

theorem State.Grant.waits (hg : s.Grant t) (hs : s.host.waits) : t.host.waits := by
  cases hg with
  | reported p => simpa [State.takenWrite] using hs
  | _ => exact hs

/-- Settles O53: each count stops at its bound or starts again, each timer is checked where it moves,
and START_UP ends with the last fill write alone. -/
theorem stepKeepsCountsInRangeAndStartUpQuiet :
    Obligations.StepKeepsCountsInRangeAndStartUpQuiet := by
  unfold Obligations.StepKeepsCountsInRangeAndStartUpQuiet
  refine ⟨fun s t hw hq hr h => ?_, fun s t hs h => ?_, fun s t hs hst h => ?_⟩
  · obtain ⟨hh, hp⟩ := State.registersInRange_iff.1 hr
    obtain ⟨hw', hq', hh', hp'⟩ := countsInRange_of_step h ⟨hw, hq, hh, hp⟩
    exact ⟨hw', hq', State.registersInRange_iff.2 ⟨hh', hp'⟩⟩
  · exact step_keeps (P := State.timersNotOverdue) (fun s h => h)
      (fun s t _ _ hg => hg.timersNotOverdue) (fun o s t hq => hq.timersNotOverdue)
      (fun o s v hv => hv.timersNotOverdue) h hs
  · exact ⟨step_keeps (P := State.startUpQuiet) (fun s h => h)
      (fun s t hd _ hg => hg.startUpQuiet hd) (fun o s t hq => hq.startUpQuiet)
      (fun o s v hv => hv.startUpQuiet) h hs,
      step_keeps (P := fun s => s.host.waits) (fun s h => h) (fun s t _ _ hg => hg.waits)
      (fun o s t hq => hq.waits) (fun o s v hv => hv.waits) h hst⟩

end

end Sys2Proof.Machine

namespace Sys2Proof.Machine

/-! PROOFS. The maintenance engine (7.4, 8.3, 9.2): what its soundness says with and without a patrol step
in progress, and what the start and the end of a job and of a step make of it. -/

section
variable {s t v f : State} {o : Option Instr}

/-! ### The engine's accesses (R1) -/

/-- An access that a job or a retire operation awaits. -/
inductive State.JobAwaits (s : State) : Access → Prop
  | retireRead (r : ReadResult) (op : RetireOp) (hop : s.sparing.retire = some op)
    (hph : op.phase = .read) : s.JobAwaits (.read .retire r .wanted)
  | spareWrite (k : Option Nat) (op : RetireOp) (hop : s.sparing.retire = some op)
    (hph : op.phase ≠ .read) : s.JobAwaits (.write .spare k .wanted)
  | fillWord (k : Option Nat) (j : RunningJob) (hj : s.maint.run = some j)
    (hk : j.job.kind = .fill) : s.JobAwaits (.write .fill k .wanted)
  | verifyRead (r : ReadResult) (j : RunningJob) (hj : s.maint.run = some j)
    (hk : j.job.kind = .verify) : s.JobAwaits (.read .verify r .wanted)

/-- The maintenance access in progress, if its operation awaits it, satisfies `P`. -/
def State.AwaitedIs (s : State) (P : Access → Prop) : Prop :=
  ∀ a, s.store.access = some a → a.claimant = .maint → a.interest = .wanted → P a

theorem State.awaitedIs_of_not_granted {P : Access → Prop} (h : s.maintGranted = false) :
    s.AwaitedIs P := by
  intro a ha hc hi
  simp [State.maintGranted, ha, hc, hi] at h

theorem State.maintGranted_of_free (h : s.store.access = none) : s.maintGranted = false := by
  rw [State.maintGranted, h]

theorem State.maintGranted_congr (h : t.store.access = s.store.access) :
    t.maintGranted = s.maintGranted := by
  rw [State.maintGranted, State.maintGranted, h]

theorem State.maintGranted_of_other {a : Access} (ha : s.store.access = some a)
    (hc : a.claimant ≠ .maint) : s.maintGranted = false := by
  simp [State.maintGranted, ha, hc]

theorem State.AwaitedIs.congr {P Q : Access → Prop} (h : s.AwaitedIs P)
    (ha : t.store.access = s.store.access) (hpq : ∀ a, P a → Q a) : t.AwaitedIs Q :=
  fun a hta hc hi => hpq a (h a (ha ▸ hta) hc hi)

theorem State.accessOwned_iff : s.accessOwned ↔
    s.AwaitedIs (fun a => s.JobAwaits a ∨
      (∃ r, a = .read .patrol r .wanted) ∧ s.patrol.phase = .checking ∨
      (∃ k, a = .write .writeBack k .wanted) ∧ s.patrol.phase = .repairing ∧
        s.sparing.retire = none) ∧
    (s.patrol.phase = .checking → ∃ r, s.store.access = some (.read .patrol r .wanted)) := by
  unfold State.accessOwned State.AwaitedIs
  refine and_congr_left fun _ => ⟨fun h a ha hc hi => ?_, fun h => ?_⟩
  · rw [ha] at h
    cases a with
    | read tag r i =>
      cases hi
      cases tag with
      | lookup => cases hc
      | prefetch => cases hc
      | verify => obtain ⟨j, hj, hk⟩ := h; exact .inl (.verifyRead r j hj hk)
      | retire => obtain ⟨op, hop, hph⟩ := h; exact .inl (.retireRead r op hop hph)
      | patrol => exact .inr (.inl ⟨⟨r, rfl⟩, h⟩)
    | write tag k i =>
      cases hi
      cases tag with
      | posted => cases hc
      | fill => obtain ⟨j, hj, hk⟩ := h; exact .inl (.fillWord k j hj hk)
      | spare => obtain ⟨op, hop, hph⟩ := h; exact .inl (.spareWrite k op hop hph)
      | writeBack => exact .inr (.inr ⟨⟨k, rfl⟩, h⟩)
  · split
    · next r ha =>
      rcases h _ ha rfl rfl with hj | ⟨⟨_, he⟩, -⟩ | ⟨⟨_, he⟩, -⟩
      · cases hj with | retireRead _ op hop hph => exact ⟨op, hop, hph⟩
      · cases he
      · cases he
    · next k ha =>
      rcases h _ ha rfl rfl with hj | ⟨⟨_, he⟩, -⟩ | ⟨⟨_, he⟩, -⟩
      · cases hj with | spareWrite _ op hop hph => exact ⟨op, hop, hph⟩
      · cases he
      · cases he
    · next r ha =>
      rcases h _ ha rfl rfl with hj | ⟨-, hp⟩ | ⟨⟨_, he⟩, -⟩
      · cases hj
      · exact hp
      · cases he
    · next k ha =>
      rcases h _ ha rfl rfl with hj | ⟨⟨_, he⟩, -⟩ | ⟨-, hp⟩
      · cases hj
      · cases he
      · exact hp
    · next k ha =>
      rcases h _ ha rfl rfl with hj | ⟨⟨_, he⟩, -⟩ | ⟨⟨_, he⟩, -⟩
      · cases hj with | fillWord _ j hj hk => exact ⟨j, hj, hk⟩
      · cases he
      · cases he
    · next r ha =>
      rcases h _ ha rfl rfl with hj | ⟨⟨_, he⟩, -⟩ | ⟨⟨_, he⟩, -⟩
      · cases hj with | verifyRead _ j hj hk => exact ⟨j, hj, hk⟩
      · cases he
      · cases he
    · trivial

/-! ### The engine between patrol steps -/

/-- No patrol step is in progress, and the jobs are in order (R111, R127, R130). -/
structure State.JobsOnly (s : State) : Prop where
  step : s.patrol.step = none
  queue : s.maint.queue ≠ [] → s.maint.run.isSome = true
  owner : ∀ op, s.sparing.retire = some op → op.source = .job ∧
    ∃ j, s.maint.run = some j ∧ j.job.kind = .retire ∧ j.job.start = op.address
  started : s.sparing.retire = none → ∀ j, s.maint.run = some j → j.job.kind ≠ .retire
  mark : ∀ a, s.store.mark = some a → ∃ op, s.sparing.retire = some op ∧ op.address = a
  access : s.AwaitedIs s.JobAwaits

/-- The patrol between steps, in OFF, PACING or YIELDING (R144, R146, R154). -/
inductive State.Resting (s : State) : Prop
  | off (hph : s.patrol.phase = .off) (ht : s.patrol.timer = none)
    (he : s.store.device = .running → s.patrol.enable = false)
  | pacing (hd : s.store.device = .running) (hph : s.patrol.phase = .pacing)
    (ht : s.patrol.timer.isSome = true) (he : s.patrol.enable = true)
    (hb : s.maint.busy = false)
  | yielding (hd : s.store.device = .running) (hph : s.patrol.phase = .yielding)
    (ht : s.patrol.timer = none) (he : s.patrol.enable = true) (hb : s.maint.busy = true)

theorem State.maintSound_of_jobsOnly (h : s.JobsOnly) (hr : s.Resting) : s.maintSound := by
  have hown : s.retireOwned := by
    unfold State.retireOwned
    split
    · next hn => exact ⟨h.started hn, by simp [h.step]⟩
    · next op hop =>
      obtain ⟨hsrc, j, hj⟩ := h.owner op hop
      rw [hsrc]
      exact ⟨j, hj⟩
  have hmark : s.markOwned := fun a ha => .inl (h.mark a ha)
  have hacc : ∀ {p}, s.patrol.phase = p → p ≠ .checking → s.accessOwned := fun hp hn =>
    State.accessOwned_iff.2 ⟨h.access.congr rfl fun _ => .inl,
      fun hc => absurd (hp.symm.trans hc) hn⟩
  have hqueue : s.queueWaits := fun hq => .inl (h.queue hq)
  cases hr with
  | off hph ht he =>
    exact ⟨by simp [State.maintExclusive, h.step, hph, ht]; exact he, hqueue, fun _ => hph, hown, hmark,
      hacc hph nofun⟩
  | pacing hd hph ht he hb =>
    exact ⟨by simp [State.maintExclusive, h.step, hph, ht, he, hb], hqueue, by simp [hd], hown, hmark,
      hacc hph nofun⟩
  | yielding hd hph ht he hb =>
    exact ⟨by simp [State.maintExclusive, h.step, hph, ht, he, hb], hqueue, by simp [hd], hown, hmark,
      hacc hph nofun⟩

theorem State.jobsOnly_of_maintSound (h : s.maintSound) (hn : s.patrol.step = none) :
    s.JobsOnly ∧ s.Resting := by
  obtain ⟨⟨-, hstep, htimer, hpacing, hyield, hoff⟩, hqueue, hup, hown, hmark, hacc⟩ := h
  obtain ⟨haw, hcheck⟩ := State.accessOwned_iff.1 hacc
  have hph : ¬(s.patrol.phase = .claiming ∨ s.patrol.phase = .checking ∨
      s.patrol.phase = .repairing) := fun h => by simpa [hn] using hstep.2 h
  simp only [not_or] at hph
  obtain ⟨hnc, hnk, hnr⟩ := hph
  unfold State.retireOwned at hown
  refine ⟨⟨hn, fun hq => ?_, fun op hop => ?_, fun hnone j hj => ?_, fun a ha => ?_,
    fun a ha hc hi => ?_⟩, ?_⟩
  · rcases hqueue hq with h | h
    · exact h
    · simp [hn] at h
  · rw [hop] at hown
    cases hsrc : op.source with
    | job =>
      simp only [hsrc] at hown
      exact ⟨rfl, hown⟩
    | patrol =>
      simp only [hsrc] at hown
      obtain ⟨st, hst, -⟩ := hown
      rw [hn] at hst
      cases hst
  · rw [hnone] at hown
    exact hown.1 j hj
  · rcases hmark a ha with h | ⟨st, hst, -⟩
    · exact h
    · rw [hn] at hst
      cases hst
  · rcases haw a ha hc hi with h | ⟨-, h⟩ | ⟨-, h, -⟩
    · exact h
    · exact absurd h hnk
    · exact absurd h hnr
  · have hrunning : s.patrol.phase ≠ .off → s.store.device = .running := fun ho => by
      cases hd : s.store.device with
      | startUp => exact absurd (hup hd) ho
      | running => rfl
    have hnotimer : s.patrol.phase ≠ .pacing → s.patrol.timer = none := fun hp => by
      by_contra ht
      exact hp (htimer.1 (Option.isSome_iff_ne_none.2 ht))
    cases hp : s.patrol.phase with
    | off => exact .off hp (hnotimer (by simp [hp])) (hoff hp)
    | pacing =>
      obtain ⟨he, hb⟩ := hpacing hp
      exact .pacing (hrunning (by simp [hp])) hp (htimer.2 hp) he hb
    | yielding =>
      obtain ⟨he, hb⟩ := hyield hp
      exact .yielding (hrunning (by simp [hp])) hp (hnotimer (by simp [hp])) he hb
    | claiming => exact absurd hp hnc
    | checking => exact absurd hp hnk
    | repairing => exact absurd hp hnr

/-! ### The engine during a patrol step -/

/-- The stage of the step `st` in progress: its claim waits, its read is in progress, it repairs by
write-back, or by a retire operation (R147 to R151). -/
inductive State.Stage (s : State) (st : PatrolStep) : Prop
  | claiming (hph : s.patrol.phase = .claiming) (hop : s.sparing.retire = none)
    (hr : st.retiring = false) (hm : s.store.mark = none) (hg : s.maintGranted = false)
  | checking (r : ReadResult) (hph : s.patrol.phase = .checking) (hop : s.sparing.retire = none)
    (hr : st.retiring = false) (ha : s.store.access = some (.read .patrol r .wanted))
  | writeBack (hph : s.patrol.phase = .repairing) (hop : s.sparing.retire = none)
    (hr : st.retiring = false) (ha : s.AwaitedIs fun a => ∃ k, a = .write .writeBack k .wanted)
  | retiring (op : RetireOp) (hph : s.patrol.phase = .repairing)
    (hop : s.sparing.retire = some op) (hsrc : op.source = .patrol) (hr : st.retiring = true)
    (haddr : st.address = op.address) (ha : s.AwaitedIs s.JobAwaits)

/-- The patrol step `st` is in progress (R126, R143). -/
structure State.Stepping (s : State) (st : PatrolStep) : Prop where
  step : s.patrol.step = some st
  device : s.store.device = .running
  run : s.maint.run = none
  timer : s.patrol.timer = none
  mark : ∀ a, s.store.mark = some a → a = st.address
  stage : s.Stage st

theorem State.maintSound_of_stepping {st : PatrolStep} (h : s.Stepping st) : s.maintSound := by
  have hqueue : s.queueWaits := fun _ => .inr (by simp [h.step])
  obtain ⟨hst, hd, hrun, ht, hmark, hstage⟩ := h
  have hup : ∀ {p : PatrolPhase}, s.store.device = .startUp → p = .off := fun h => by
    rw [hd] at h; cases h
  have hnone : s.sparing.retire = none → st.retiring = false → s.retireOwned := fun hop hr => by
    unfold State.retireOwned
    rw [hop]
    exact ⟨by simp [hrun], by simp [hst, hr]⟩
  have hmarked : s.patrol.phase = .checking ∨ s.patrol.phase = .repairing → s.markOwned :=
    fun hp a ha => .inr ⟨st, hst, (hmark a ha).symm, hp⟩
  cases hstage with
  | claiming hph hop hr hm hg =>
    exact ⟨by simp [State.maintExclusive, hrun, hst, hph, ht], hqueue, hup, hnone hop hr,
      fun a ha => by (rw [hm] at ha; cases ha),
      State.accessOwned_iff.2 ⟨State.awaitedIs_of_not_granted hg, by simp [hph]⟩⟩
  | checking r hph hop hr ha =>
    refine ⟨by simp [State.maintExclusive, hrun, hst, hph, ht], hqueue, hup, hnone hop hr,
      hmarked (.inl hph), State.accessOwned_iff.2 ⟨fun a hb _ _ => ?_, fun _ => ⟨r, ha⟩⟩⟩
    cases ha.symm.trans hb
    exact .inr (.inl ⟨⟨r, rfl⟩, hph⟩)
  | writeBack hph hop hr ha =>
    exact ⟨by simp [State.maintExclusive, hrun, hst, hph, ht], hqueue, hup, hnone hop hr,
      hmarked (.inr hph), State.accessOwned_iff.2
        ⟨ha.congr rfl fun _ hk => .inr (.inr ⟨hk, hph, hop⟩), by simp [hph]⟩⟩
  | retiring op hph hop hsrc hr haddr ha =>
    refine ⟨by simp [State.maintExclusive, hrun, hst, hph, ht], hqueue, hup, ?_,
      hmarked (.inr hph), State.accessOwned_iff.2 ⟨ha.congr rfl fun _ => .inl, by simp [hph]⟩⟩
    unfold State.retireOwned
    rw [hop]
    dsimp only
    rw [hsrc]
    exact ⟨st, hst, hr, haddr, hph⟩

theorem State.stepping_of_maintSound {st : PatrolStep} (h : s.maintSound)
    (hst : s.patrol.step = some st) : s.Stepping st := by
  obtain ⟨⟨hexcl, hstep, htimer, -⟩, -, hup, hown, hmark, hacc⟩ := h
  obtain ⟨haw, hcheck⟩ := State.accessOwned_iff.1 hacc
  have hph := hstep.1 (by simp [hst])
  have hrun : s.maint.run = none := by
    by_contra hr
    have := hexcl (Option.isSome_iff_ne_none.2 hr)
    rw [hst] at this
    cases this
  have htime : s.patrol.timer = none := by
    by_contra ht
    rw [htimer.1 (Option.isSome_iff_ne_none.2 ht)] at hph
    simp at hph
  have hd : s.store.device = .running := by
    cases hd : s.store.device with
    | startUp => rw [hup hd] at hph; simp at hph
    | running => rfl
  have hretire : s.sparing.retire = none ∧ st.retiring = false ∨
      ∃ op, s.sparing.retire = some op ∧ op.source = .patrol ∧ st.retiring = true ∧
        st.address = op.address ∧ s.patrol.phase = .repairing := by
    unfold State.retireOwned at hown
    cases hop : s.sparing.retire with
    | none =>
      rw [hop] at hown
      exact .inl ⟨rfl, hown.2 st hst⟩
    | some op =>
      rw [hop] at hown
      cases hsrc : op.source with
      | job =>
        simp only [hsrc, hrun] at hown
        obtain ⟨j, hj, -⟩ := hown
        cases hj
      | patrol =>
        simp only [hsrc, hst] at hown
        obtain ⟨st', hst', hr⟩ := hown
        cases hst'
        exact .inr ⟨op, rfl, hsrc, hr⟩
  have hmarkst : ∀ a, s.store.mark = some a →
      a = st.address ∧ (s.patrol.phase = .checking ∨ s.patrol.phase = .repairing) := by
    intro a ha
    rcases hmark a ha with ⟨op, hop, rfl⟩ | ⟨st', hst', rfl, hp⟩
    · rcases hretire with ⟨hn, -⟩ | ⟨op', hop', -, -, haddr, hp⟩
      · rw [hn] at hop
        cases hop
      · cases hop'.symm.trans hop
        exact ⟨haddr.symm, .inr hp⟩
    · cases hst.symm.trans hst'
      exact ⟨rfl, hp⟩
  have hnojob : s.sparing.retire = none → ∀ a, ¬s.JobAwaits a := fun hn a hj => by
    cases hj with
    | retireRead r op hop => rw [hn] at hop; cases hop
    | spareWrite k op hop => rw [hn] at hop; cases hop
    | fillWord k j hj => rw [hrun] at hj; cases hj
    | verifyRead r j hj => rw [hrun] at hj; cases hj
  refine ⟨hst, hd, hrun, htime, fun a ha => (hmarkst a ha).1, ?_⟩
  rcases hretire with ⟨hop, hr⟩ | ⟨op, hop, hsrc, hr, haddr, hp⟩
  · rcases hph with hp | hp | hp
    · refine .claiming hp hop hr ?_ ?_
      · by_contra hm
        obtain ⟨a, ha⟩ := Option.ne_none_iff_exists'.1 hm
        have := (hmarkst a ha).2
        simp [hp] at this
      · by_contra hg
        unfold State.maintGranted at hg
        split at hg
        · next a ha =>
          simp only [Bool.not_eq_false, Bool.and_eq_true, beq_iff_eq] at hg
          rcases haw a ha hg.1 hg.2 with hj | ⟨-, hc⟩ | ⟨-, hc, -⟩
          · exact hnojob hop a hj
          · simp [hp] at hc
          · simp [hp] at hc
        · simp at hg
    · obtain ⟨r, ha⟩ := hcheck hp
      exact .checking r hp hop hr ha
    · refine .writeBack hp hop hr fun a ha hc hi => ?_
      rcases haw a ha hc hi with hj | ⟨-, hc⟩ | ⟨hk, -⟩
      · exact absurd hj (hnojob hop a)
      · simp [hp] at hc
      · exact hk
  · refine .retiring op hp hop hsrc hr haddr fun a ha hc hi => ?_
    rcases haw a ha hc hi with hj | ⟨-, hc⟩ | ⟨-, -, hn⟩
    · exact hj
    · simp [hp] at hc
    · rw [hop] at hn
      cases hn

/-- A sound maintenance engine is between steps or in one. -/
theorem State.maintSound_cases (h : s.maintSound) :
    (s.JobsOnly ∧ s.Resting) ∨ ∃ st, s.Stepping st := by
  cases hst : s.patrol.step with
  | none => exact .inl (State.jobsOnly_of_maintSound h hst)
  | some st => exact .inr ⟨st, State.stepping_of_maintSound h hst⟩

end

end Sys2Proof.Machine

namespace Sys2Proof.Machine

/-! PROOFS. The maintenance engine (7.4, 8.3, 9.2): each event keeps it sound. -/

section
variable {s t v f u : State} {o : Option Instr}

/-! ### What depends on the jobs and the retire operation alone -/

theorem RunningJob.exists_of_map {r r' : Option RunningJob} {j : RunningJob}
    (h : r'.map RunningJob.job = r.map RunningJob.job) (hj : r = some j) :
    ∃ j', r' = some j' ∧ j'.job = j.job := by
  rw [hj, Option.map_some, Option.map_eq_some_iff] at h
  exact h

theorem State.JobAwaits.congr {a : Access} (h : s.JobAwaits a)
    (hr : t.sparing.retire = s.sparing.retire)
    (hj : t.maint.run.map RunningJob.job = s.maint.run.map RunningJob.job) : t.JobAwaits a := by
  cases h with
  | retireRead r op hop hph => exact .retireRead r op (hr.trans hop) hph
  | spareWrite k op hop hph => exact .spareWrite k op (hr.trans hop) hph
  | fillWord k j hrun hk =>
    obtain ⟨j', hj', he⟩ := RunningJob.exists_of_map hj hrun
    exact .fillWord k j' hj' (he ▸ hk)
  | verifyRead r j hrun hk =>
    obtain ⟨j', hj', he⟩ := RunningJob.exists_of_map hj hrun
    exact .verifyRead r j' hj' (he ▸ hk)

/-- The running job's progress and the patrol's settings are nothing to the order of the jobs. -/
theorem State.JobsOnly.congr (h : s.JobsOnly) (hs : t.patrol.step = none)
    (hq : t.maint.queue ≠ [] → t.maint.run.isSome = true)
    (hr : t.sparing.retire = s.sparing.retire) (hm : t.store.mark = s.store.mark)
    (ha : t.store.access = s.store.access)
    (hj : t.maint.run.map RunningJob.job = s.maint.run.map RunningJob.job) : t.JobsOnly where
  step := hs
  queue := hq
  owner := fun op hop => by
    obtain ⟨hsrc, j, hrun, hk⟩ := h.owner op (hr ▸ hop)
    obtain ⟨j', hj', he⟩ := RunningJob.exists_of_map hj hrun
    exact ⟨hsrc, j', hj', he ▸ hk⟩
  started := fun hn j hrun => by
    obtain ⟨j', hj', he⟩ := RunningJob.exists_of_map hj.symm hrun
    exact he ▸ h.started (hr ▸ hn) j' hj'
  mark := fun a hmark => hr ▸ h.mark a (hm ▸ hmark)
  access := h.access.congr ha fun _ haw => haw.congr hr hj

/-- The jobs that wait, and the patrol's settings, are nothing to a step in progress. -/
theorem State.Stepping.congr {st : PatrolStep} (h : s.Stepping st)
    (hd : t.store.device = s.store.device) (hs : t.patrol.step = s.patrol.step)
    (hp : t.patrol.phase = s.patrol.phase) (ht : t.patrol.timer = s.patrol.timer)
    (hr : t.sparing.retire = s.sparing.retire) (hm : t.store.mark = s.store.mark)
    (ha : t.store.access = s.store.access) (hj : t.maint.run = s.maint.run) : t.Stepping st where
  step := hs.trans h.step
  device := hd.trans h.device
  run := hj.trans h.run
  timer := ht.trans h.timer
  mark := fun a hmark => h.mark a (hm ▸ hmark)
  stage := by
    cases h.stage with
    | claiming hph hop hret hmark hg =>
      exact .claiming (hp.trans hph) (hr.trans hop) hret (hm.trans hmark)
        ((State.maintGranted_congr ha).trans hg)
    | checking r hph hop hret hacc =>
      exact .checking r (hp.trans hph) (hr.trans hop) hret (ha.trans hacc)
    | writeBack hph hop hret hacc =>
      exact .writeBack (hp.trans hph) (hr.trans hop) hret (hacc.congr ha fun _ => id)
    | retiring op hph hop hsrc hret haddr hacc =>
      exact .retiring op (hp.trans hph) (hr.trans hop) hsrc hret haddr
        (hacc.congr ha fun _ haw => haw.congr hr (by rw [hj]))

/-! ### Jobs start and patrols go on -/

/-- Nothing is in progress in the maintenance engine, whatever the queue holds. -/
structure State.AtRest (s : State) : Prop where
  step : s.patrol.step = none
  run : s.maint.run = none
  retire : s.sparing.retire = none
  mark : s.store.mark = none
  access : s.maintGranted = false

theorem State.startJob_of_idle {j : Job} {rest : List Job} (hr : s.maint.run = none)
    (hs : s.patrol.step = none) (hq : s.maint.queue = j :: rest) :
    s.startJob = { s with
      maint := { s.maint with run := some j.fresh, queue := rest }
      sparing := { s.sparing with
        retire := if j.kind = .retire then some ⟨j.start, .job, .read⟩ else s.sparing.retire } } := by
  rcases j with ⟨kind⟩
  unfold State.startJob
  rw [hr, hs, hq]
  cases kind <;> rfl

theorem State.startJob_of_empty (hq : s.maint.queue = []) : s.startJob = s := by
  rcases s.startJob_cases with h | ⟨j, rest, -, -, hj, -⟩
  · exact h
  · rw [hq] at hj
    cases hj

theorem State.startJob_of_running {j : RunningJob} (hr : s.maint.run = some j) :
    s.startJob = s := by
  rcases s.startJob_cases with h | ⟨k, rest, hn, -⟩
  · exact h
  · rw [hr] at hn
    cases hn

theorem State.startJob_of_step {st : PatrolStep} (hs : s.patrol.step = some st) :
    s.startJob = s := by
  rcases s.startJob_cases with h | ⟨k, rest, -, hn, -⟩
  · exact h
  · rw [hs] at hn
    cases hn

theorem State.AtRest.jobsOnly (h : s.AtRest) (hq : s.maint.queue = []) : s.JobsOnly where
  step := h.step
  queue := fun hn => absurd hq hn
  owner := fun op hop => by rw [h.retire] at hop; cases hop
  started := fun _ j hj => by rw [h.run] at hj; cases hj
  mark := fun a ha => by rw [h.mark] at ha; cases ha
  access := State.awaitedIs_of_not_granted h.access

/-- The head of the queue starts, if there is one (R127). -/
theorem State.AtRest.startJob (h : s.AtRest) : s.startJob.JobsOnly := by
  cases hq : s.maint.queue with
  | nil =>
    rw [State.startJob_of_empty hq]
    exact h.jobsOnly hq
  | cons j rest =>
    rw [State.startJob_of_idle h.run h.step hq]
    refine ⟨h.step, fun _ => rfl, fun op hop => ?_, fun hn k hk => ?_, fun a ha => ?_, ?_⟩
    · dsimp only at hop
      split at hop
      · next hk =>
        cases hop
        exact ⟨rfl, j.fresh, rfl, hk, rfl⟩
      · rw [h.retire] at hop
        cases hop
    · cases hk
      intro hk
      have hk' : j.kind = .retire := hk
      simp [hk'] at hn
    · rw [h.mark] at ha
      cases ha
    · exact State.awaitedIs_of_not_granted (s := { s with maint := _, sparing := _ }) h.access

theorem Maint.not_busy_iff {m : Maint} : m.busy = false ↔ m.run = none ∧ m.queue = [] := by
  simp [Maint.busy]

/-- Between steps, with nothing running, nothing is in progress. -/
theorem State.JobsOnly.atRest (h : s.JobsOnly) (hr : s.maint.run = none) :
    s.AtRest ∧ s.maint.queue = [] := by
  have hop : s.sparing.retire = none := by
    by_contra hn
    obtain ⟨op, hop⟩ := Option.ne_none_iff_exists'.1 hn
    obtain ⟨-, j, hj, -⟩ := h.owner op hop
    rw [hr] at hj
    cases hj
  refine ⟨⟨h.step, hr, hop, ?_, ?_⟩, ?_⟩
  · by_contra hn
    obtain ⟨a, ha⟩ := Option.ne_none_iff_exists'.1 hn
    obtain ⟨op, h', -⟩ := h.mark a ha
    rw [hop] at h'
    cases h'
  · by_contra hg
    unfold State.maintGranted at hg
    split at hg
    · next a ha =>
      simp only [Bool.not_eq_false, Bool.and_eq_true, beq_iff_eq] at hg
      cases h.access a ha hg.1 hg.2 with
      | retireRead r op h' => rw [hop] at h'; cases h'
      | spareWrite k op h' => rw [hop] at h'; cases h'
      | fillWord k j hj => rw [hr] at hj; cases hj
      | verifyRead r j hj => rw [hr] at hj; cases hj
    · simp at hg
  · by_contra hq
    have := h.queue hq
    rw [hr] at this
    cases this

/-- The patrol changed, its step still none. -/
theorem State.JobsOnly.setPatrol (h : s.JobsOnly) {p : Patrol} (hp : p.step = none) :
    ({ s with patrol := p } : State).JobsOnly := h.congr hp h.queue rfl rfl rfl rfl

/-- A step that starts with nothing in progress waits for its claim (R144, R147). -/
theorem State.AtRest.startStep (h : s.AtRest) (hd : s.store.device = .running) :
    ({ s with patrol := s.patrol.startStep } : State).maintSound :=
  State.maintSound_of_stepping (st := _)
    { step := rfl
      device := hd
      run := h.run
      timer := rfl
      mark := fun a ha => by rw [h.mark] at ha; cases ha
      stage := .claiming rfl h.retire rfl h.mark h.access }

/-- The patrol goes on, or stops (R144, R153, R154). -/
theorem State.JobsOnly.resume (h : s.JobsOnly) (hd : s.store.device = .running) :
    ({ s with patrol := s.patrol.resume s.maint.busy } : State).maintSound := by
  unfold Patrol.resume
  split
  · next he =>
    exact State.maintSound_of_jobsOnly (h.setPatrol h.step)
      (.off rfl rfl fun _ => by simpa using he)
  · next he =>
    rw [Bool.not_eq_true, Bool.not_eq_false'] at he
    split
    · next hb =>
      exact State.maintSound_of_jobsOnly (h.setPatrol h.step) (.yielding hd rfl rfl he hb)
    · next hb =>
      rw [Bool.not_eq_true] at hb
      split
      · obtain ⟨hr, -⟩ := Maint.not_busy_iff.1 hb
        exact (h.atRest hr).1.startStep hd
      · exact State.maintSound_of_jobsOnly (h.setPatrol h.step) (.pacing hd rfl rfl he hb)

/-- A patrol that a running job has kept from pacing (R146). -/
inductive Patrol.HeldUp (p : Patrol) : Prop
  | off (hph : p.phase = .off) (ht : p.timer = none) (he : p.enable = false)
  | yielding (hph : p.phase = .yielding) (ht : p.timer = none) (he : p.enable = true)

theorem State.Resting.heldUp (h : s.Resting) (hd : s.store.device = .running)
    (hb : s.maint.busy = true) : s.patrol.HeldUp := by
  cases h with
  | off hph ht he => exact .off hph ht (he hd)
  | pacing _ hph ht he hn => rw [hn] at hb; cases hb
  | yielding _ hph ht he => exact .yielding hph ht he

theorem State.Resting.of_heldUp (hd : s.store.device = .running) (hb : s.maint.busy = true)
    (hp : s.patrol.HeldUp) : s.Resting := by
  cases hp with
  | off hph ht he => exact .off hph ht fun _ => he
  | yielding hph ht he => exact .yielding hd hph ht he hb

theorem State.JobsOnly.leaveYielding (h : s.JobsOnly) (hd : s.store.device = .running)
    (hp : s.patrol.HeldUp) : s.leaveYielding.maintSound := by
  rw [State.leaveYielding_eq]
  split
  · exact h.resume hd
  · next hn =>
    refine State.maintSound_of_jobsOnly h ?_
    cases hp with
    | off hph ht he => exact .off hph ht fun _ => he
    | yielding hph ht he =>
      exact .yielding hd hph ht he (by simpa [hph] using hn)

theorem busy_of_running {m : Maint} {j : RunningJob} (h : m.run = some j) : m.busy = true := by
  simp [Maint.busy, h]

/-! ### Ends of jobs and steps -/

/-- A running job ends with its operation's traces gone (R131, R132). -/
theorem State.endJob_maintSound {j : RunningJob} {out : JobOutcome} {k : Option SlotNo}
    (h : ({ s with maint := { s.maint with run := none } } : State).AtRest)
    (hd : s.store.device = .running) (hp : s.patrol.HeldUp) : (s.endJob j out k).maintSound := by
  unfold State.endJob
  have hrest : (s.setMaint { s.maint with
      run := none, completions := s.maint.completions ++ [j.completion out k] }).AtRest :=
    ⟨h.step, rfl, h.retire, h.mark, h.access⟩
  exact hrest.startJob.leaveYielding (by simpa using hd) (by simpa using hp)

/-- A step ends with its operation's traces gone (R153). -/
theorem State.endStep_maintSound (hr : s.maint.run = none) (hop : s.sparing.retire = none)
    (hg : s.maintGranted = false) (hd : s.store.device = .running) : s.endStep.maintSound := by
  have hrest : (s.releaseMark.setPatrol s.patrol.advance).AtRest := ⟨rfl, hr, hop, rfl, hg⟩
  exact hrest.startJob.resume (by simpa using hd)

/-- The RETIRE job ends with its operation (R118, R130). -/
theorem State.endRetireJob_maintSound {j : RunningJob} {r : ReadOutcome} {out : JobOutcome}
    {k : Option SlotNo} (hst : s.patrol.step = none) (hj : s.maint.run = some j)
    (hg : s.maintGranted = false) (hd : s.store.device = .running) (hp : s.patrol.HeldUp) :
    (s.endRetireJob r out k).maintSound := by
  unfold State.endRetireJob
  rw [hj]
  exact State.endJob_maintSound (s := s.clearRetire.releaseMark) ⟨hst, rfl, rfl, rfl, hg⟩ hd hp

/-! ### Events that leave the engine's records -/

/-- The records that the soundness of the maintenance engine speaks of, but for the access. -/
structure State.SameMaint (s t : State) : Prop where
  device : t.store.device = s.store.device
  mark : t.store.mark = s.store.mark
  retire : t.sparing.retire = s.sparing.retire
  run : t.maint.run = s.maint.run
  queue : t.maint.queue = s.maint.queue
  patrol : t.patrol = s.patrol

theorem Maint.busy_congr {m m' : Maint} (hr : m'.run = m.run) (hq : m'.queue = m.queue) :
    m'.busy = m.busy := by rw [Maint.busy, Maint.busy, hr, hq]

theorem State.SameMaint.maintSound (h : s.SameMaint t) (hs : s.maintSound)
    (ha : t.store.access = s.store.access) : t.maintSound := by
  simp only [State.maintSound, State.maintExclusive, State.queueWaits, State.retireOwned,
    State.markOwned, State.accessOwned] at hs ⊢
  rw [Maint.busy_congr h.run h.queue, h.device, h.mark, h.retire, h.run, h.queue, h.patrol, ha]
  exact hs

theorem State.SameMaint.resting (h : s.SameMaint t) (hr : s.Resting) : t.Resting := by
  have hp := h.patrol
  have hb := Maint.busy_congr h.run h.queue
  cases hr with
  | off hph ht he => exact .off (hp ▸ hph) (hp ▸ ht) fun hd => hp ▸ he (h.device ▸ hd)
  | pacing hd hph ht he hn =>
    exact .pacing (h.device.trans hd) (hp ▸ hph) (hp ▸ ht) (hp ▸ he) (hb.trans hn)
  | yielding hd hph ht he hn =>
    exact .yielding (h.device.trans hd) (hp ▸ hph) (hp ▸ ht) (hp ▸ he) (hb.trans hn)

theorem State.phase_ne_checking (h : s.maintSound) (hg : s.maintGranted = false) :
    s.patrol.phase ≠ .checking := by
  intro hp
  obtain ⟨-, -, -, -, -, hacc⟩ := h
  obtain ⟨r, ha⟩ := (State.accessOwned_iff.1 hacc).2 hp
  simp [State.maintGranted, ha, Access.claimant, Access.interest] at hg

/-- The engine's records as they were, and no access of its own in progress. -/
theorem State.SameMaint.maintSound_of_free (h : s.SameMaint t) (hs : s.maintSound)
    (hc : s.patrol.phase ≠ .checking) (hg : t.maintGranted = false) : t.maintSound := by
  rcases State.maintSound_cases hs with ⟨hj, hr⟩ | ⟨st, hst⟩
  · refine State.maintSound_of_jobsOnly ?_ (h.resting hr)
    exact
      { step := h.patrol ▸ hj.step
        queue := fun hq => h.run ▸ hj.queue (h.queue ▸ hq)
        owner := fun op hop => h.run ▸ hj.owner op (h.retire ▸ hop)
        started := fun hn => h.run ▸ hj.started (h.retire ▸ hn)
        mark := fun a ha => h.retire ▸ hj.mark a (h.mark ▸ ha)
        access := State.awaitedIs_of_not_granted hg }
  · refine State.maintSound_of_stepping (st := st)
      { step := h.patrol ▸ hst.step
        device := h.device.trans hst.device
        run := h.run.trans hst.run
        timer := h.patrol ▸ hst.timer
        mark := fun a ha => hst.mark a (h.mark ▸ ha)
        stage := ?_ }
    cases hst.stage with
    | claiming hph hop hr hm =>
      exact .claiming (h.patrol ▸ hph) (h.retire.trans hop) hr (h.mark.trans hm) hg
    | checking r hph => exact absurd hph hc
    | writeBack hph hop hr =>
      exact .writeBack (h.patrol ▸ hph) (h.retire.trans hop) hr (State.awaitedIs_of_not_granted hg)
    | retiring op hph hop hsrc hr haddr =>
      exact .retiring op (h.patrol ▸ hph) (h.retire.trans hop) hsrc hr haddr
        (State.awaitedIs_of_not_granted hg)

/-- An access of another claimant completes, or is granted on a free store. -/
theorem State.SameMaint.maintSound_of_other (h : s.SameMaint t) (hs : s.maintSound)
    (hg : s.maintGranted = false) (ht : t.maintGranted = false) : t.maintSound :=
  h.maintSound_of_free hs (State.phase_ne_checking hs hg) ht

/-! ### Jobs accepted and aborted, the patrol's registers, resets -/

theorem Patrol.yieldToJob_frame (p : Patrol) : p.yieldToJob.step = p.step := by
  unfold Patrol.yieldToJob
  split <;> rfl

/-- A job accepted joins the queue, starts if it may, and holds up a pacing patrol (R127, R146). -/
theorem State.accept_maintSound {kind : JobKind} {start : Addr} {count : Nat} {value : Data}
    (hs : s.maintSound) (hd : s.store.device = .running) :
    ((s.setMaint (s.maint.accept kind start count value)).setPatrol
      s.patrol.yieldToJob).startJob.maintSound := by
  rcases State.maintSound_cases hs with ⟨hj, hr⟩ | ⟨st, hst⟩
  · have hheld : s.patrol.yieldToJob.HeldUp := by
      unfold Patrol.yieldToJob
      cases hr with
      | off hph ht he => exact .off (by simp [hph]) (by simp [hph, ht]) (by simp [hph, he hd])
      | pacing _ hph ht he => exact .yielding (by simp [hph]) (by simp [hph]) (by simp [hph, he])
      | yielding _ hph ht he => exact .yielding (by simp [hph]) (by simp [hph, ht]) (by simp [hph, he])
    have hstep : s.patrol.yieldToJob.step = none := by rw [Patrol.yieldToJob_frame]; exact hj.step
    have hjobs : ((s.setMaint (s.maint.accept kind start count value)).setPatrol
        s.patrol.yieldToJob).startJob.JobsOnly := by
      cases hrun : s.maint.run with
      | none =>
        obtain ⟨h, -⟩ := hj.atRest hrun
        exact State.AtRest.startJob ⟨hstep, hrun, h.retire, h.mark, h.access⟩
      | some j =>
        rw [State.startJob_of_running (j := j) (by simpa [Maint.accept] using hrun)]
        exact hj.congr hstep (fun _ => by simp [Maint.accept, hrun]) rfl rfl rfl rfl
    refine State.maintSound_of_jobsOnly hjobs (State.Resting.of_heldUp (by simpa using hd) ?_
      (by simpa using hheld))
    by_contra hb
    rw [Bool.not_eq_true, Maint.not_busy_iff] at hb
    rcases ((s.setMaint (s.maint.accept kind start count value)).setPatrol
      s.patrol.yieldToJob).startJob_cases with he | ⟨j, rest, -, -, -, he⟩ <;> rw [he] at hb
    · simp [Maint.accept] at hb
    · simp at hb
  · rw [State.startJob_of_step (st := st) (by simpa [Patrol.yieldToJob_frame] using hst.step)]
    have hyield : s.patrol.yieldToJob = s.patrol := by
      unfold Patrol.yieldToJob
      cases hst.stage <;> simp_all
    rw [hyield]
    exact State.maintSound_of_stepping (hst.congr rfl rfl rfl rfl rfl rfl rfl rfl)

/-- ENABLE as written acts on a patrol between steps (R144, R154). -/
theorem State.writeCtrl_maintSound (hs : s.maintSound) (d : Data) :
    (s.setPatrol (s.patrol.writeCtrl d)).actOnEnable.maintSound := by
  rcases State.maintSound_cases hs with ⟨hj, hr⟩ | ⟨st, hst⟩
  · have hj' := hj.setPatrol (p := s.patrol.writeCtrl d) hj.step
    have hresume := fun hd => hj'.resume hd
    unfold State.actOnEnable
    cases hr with
    | off hph ht he =>
      split
      · next hd =>
        refine State.maintSound_of_jobsOnly hj' (.off hph ht fun hd' => ?_)
        exact DeviceState.noConfusion (hd.symm.trans hd')
      · next hd hp => exact hresume hd
      · next hd hp => exact PatrolPhase.noConfusion (hph.symm.trans hp)
      · next hd hp => exact PatrolPhase.noConfusion (hph.symm.trans hp)
      · next hd hoff _ _ => exact absurd hph hoff
    | pacing hd hph ht he hb =>
      split
      · next hd' => exact DeviceState.noConfusion (hd.symm.trans hd')
      · next _ hp => exact PatrolPhase.noConfusion (hph.symm.trans hp)
      · split
        · next he => exact State.maintSound_of_jobsOnly hj' (.pacing hd hph ht he hb)
        · exact hresume hd
      · next hp => exact PatrolPhase.noConfusion (hph.symm.trans hp)
      · next _ _ hpacing _ => exact absurd hph hpacing
    | yielding hd hph ht he hb =>
      split
      · next hd' => exact DeviceState.noConfusion (hd.symm.trans hd')
      · next _ hp => exact PatrolPhase.noConfusion (hph.symm.trans hp)
      · next hp => exact PatrolPhase.noConfusion (hph.symm.trans hp)
      · split
        · next he => exact State.maintSound_of_jobsOnly hj' (.yielding hd hph ht he hb)
        · exact hresume hd
      · next _ _ _ hyield => exact absurd hph hyield
  · have hkeep : (s.setPatrol (s.patrol.writeCtrl d)).actOnEnable =
        s.setPatrol (s.patrol.writeCtrl d) := by
      rcases State.actOnEnable_cases (s := s.setPatrol (s.patrol.writeCtrl d)) with
        h | ⟨-, hp | ⟨hp | hp, -⟩, -⟩
      · exact h
      all_goals
        have hp' : s.patrol.phase = _ := hp
        cases hst.stage <;> simp_all
    rw [hkeep]
    exact State.maintSound_of_stepping (hst.congr rfl rfl rfl rfl rfl rfl rfl rfl)

theorem State.JobsOnly.withoutQueue (h : s.JobsOnly) {r : Option RunningJob} {c : List Completion}
    {w : Nat} (hr : r.map RunningJob.job = s.maint.run.map RunningJob.job) : ({ s with
      store := { s.store with maintWait := w }
      maint := { s.maint with queue := [], run := r, completions := c } } : State).JobsOnly :=
  h.congr h.step (fun hq => absurd rfl hq) rfl rfl rfl hr

/-- Queued jobs end at once, and with them a running FILL or VERIFY without a granted access (R136). -/
theorem State.abort_maintSound {c : List Completion} {w : Nat} (hs : s.maintSound)
    (hd : s.store.device = .running) : ({ s with
      store := { s.store with maintWait := w }
      maint := { s.maint with queue := [], run := s.abortRunning.1, completions := c } } :
        State).leaveYielding.maintSound := by
  rcases State.maintSound_cases hs with ⟨hj, hr⟩ | ⟨st, hst⟩
  · rcases State.abortRunning_cases (s := s) with
      ⟨hrun, he⟩ | ⟨j, hrun, ⟨-, he⟩ | ⟨hk, ⟨hg, he⟩ | ⟨hg, he⟩⟩⟩ <;> rw [he]
    · obtain ⟨-, hq⟩ := hj.atRest hrun
      have hnot : ¬(s.maint.busy = false ∧ s.patrol.phase = .yielding) := by
        rintro ⟨hb, hp⟩
        cases hr <;> simp_all
      rw [State.leaveYielding_eq, if_neg (by simpa [Maint.busy, hrun, hq] using hnot)]
      have hsame : s.SameMaint { s with
          store := { s.store with maintWait := w }
          maint := { s.maint with queue := [], run := none, completions := c } } :=
        ⟨rfl, rfl, rfl, hrun.symm, hq.symm, rfl⟩
      exact hsame.maintSound hs rfl
    · exact (hj.withoutQueue (by simp [hrun])).leaveYielding hd
        (hr.heldUp hd (busy_of_running hrun))
    · exact (hj.withoutQueue (by simp [hrun])).leaveYielding hd
        (hr.heldUp hd (busy_of_running hrun))
    · have hop : s.sparing.retire = none := by
        by_contra hn
        obtain ⟨op, hop⟩ := Option.ne_none_iff_exists'.1 hn
        obtain ⟨-, k, hk', hkr, -⟩ := hj.owner op hop
        cases hrun.symm.trans hk'
        exact hk hkr
      have hm : s.store.mark = none := by
        by_contra hn
        obtain ⟨a, ha⟩ := Option.ne_none_iff_exists'.1 hn
        obtain ⟨op, h', -⟩ := hj.mark a ha
        rw [hop] at h'
        cases h'
      exact State.JobsOnly.leaveYielding
        (State.AtRest.jobsOnly ⟨hj.step, rfl, hop, hm, hg⟩ rfl) hd
        (hr.heldUp hd (busy_of_running hrun))
  · have hrun : s.abortRunning = (none, []) := by
      rcases State.abortRunning_cases (s := s) with ⟨-, h⟩ | ⟨j, h, -⟩
      · exact h
      · rw [hst.run] at h
        cases h
    have hp : s.patrol.phase ≠ .yielding := fun hp => by cases hst.stage <;> simp_all
    rw [hrun, State.leaveYielding_eq, if_neg fun h => hp h.2]
    exact State.maintSound_of_stepping
      (hst.congr rfl rfl rfl rfl rfl rfl rfl hst.run.symm)

/-- A soft reset ends whatever is in progress (R119, R139, R155). -/
theorem State.softReset_maintSound (s : State) : s.softReset.maintSound := by
  have hg : s.softReset.maintGranted = false := by
    unfold State.maintGranted State.softReset
    cases s.store.access with
    | none => rfl
    | some a =>
      cases a with
      | read tag r i => cases tag <;> rfl
      | write tag k i => cases tag <;> rfl
  exact State.maintSound_of_jobsOnly (State.AtRest.jobsOnly ⟨rfl, rfl, rfl, rfl, hg⟩ rfl)
    (.off rfl rfl fun _ => rfl)

/-- The timers' event starts a step out of PACING alone (R144). -/
theorem State.paced_maintSound {p : Patrol} (hs : s.maintSound) (hp : s.patrol.Paced p) :
    ({ s with patrol := p } : State).maintSound := by
  obtain ⟨i, ⟨tm, ht, rfl⟩ | ⟨hph, rfl⟩⟩ := hp
  · rcases State.maintSound_cases hs with ⟨hj, hr⟩ | ⟨st, hst⟩
    · refine State.maintSound_of_jobsOnly (hj.setPatrol hj.step) ?_
      have hnone : s.patrol.timer = none → tm = none := fun hn => by simpa [hn] using ht
      cases hr with
      | off hph htm he => exact .off hph (hnone htm) he
      | pacing hd hph htm he hb => exact .pacing hd hph (ht.trans htm) he hb
      | yielding hd hph htm he hb => exact .yielding hd hph (hnone htm) he hb
    · have htm : tm = none := by simpa [hst.timer] using ht
      exact State.maintSound_of_stepping
        (hst.congr rfl rfl rfl (htm.trans hst.timer.symm) rfl rfl rfl rfl)
  · rcases State.maintSound_cases hs with ⟨hj, hr⟩ | ⟨st, hst⟩
    · cases hr with
      | off hp => rw [hph] at hp; cases hp
      | yielding _ hp => rw [hph] at hp; cases hp
      | pacing hd _ ht he hb =>
        obtain ⟨hrun, -⟩ := Maint.not_busy_iff.1 hb
        obtain ⟨h, -⟩ := hj.atRest hrun
        exact State.AtRest.startStep (s := { s with patrol := { s.patrol with interval := i } })
          ⟨h.step, h.run, h.retire, h.mark, h.access⟩ hd
    · cases hst.stage <;> simp_all

end

end Sys2Proof.Machine

namespace Sys2Proof.Machine

/-! PROOFS. The maintenance engine (7.4, 8.3, 9.2): its completions, its grants, and every step. -/

section
variable {s t v f u : State} {o : Option Instr}

/-! ### Completions (R112, R114, R118, R128, R129, R148, R152) -/

theorem State.Filed.sameMaint (h : (s.setAccess none).Filed f) : s.SameMaint f := by
  obtain ⟨hst, -, -, -, hsp, hm, hp, -⟩ := h.frame
  exact ⟨by rw [hst]; rfl, by rw [hst]; rfl, by rw [hsp]; rfl, by rw [hm]; rfl, by rw [hm]; rfl, hp⟩

theorem State.Filed.free (h : (s.setAccess none).Filed f) : f.store.access = none := by
  obtain ⟨hst, -⟩ := h.frame
  rw [hst]
  rfl

/-- In START_UP no access is in progress. -/
theorem State.running_of_access {a : Access} (hq : s.startUpQuiet) (ha : s.store.access = some a) :
    s.store.device = .running := by
  cases hd : s.store.device with
  | running => rfl
  | startUp =>
    have := (State.startUpQuiet_iff.1 hq).1 hd
    rw [this.1.access] at ha
    cases ha

/-- While a job runs, no step is in progress. -/
theorem State.jobsOnly_of_run {j : RunningJob} (hs : s.maintSound) (hj : s.maint.run = some j) :
    s.JobsOnly ∧ s.Resting := by
  rcases State.maintSound_cases hs with h | ⟨st, hst⟩
  · exact h
  · rw [hst.run] at hj
    cases hj

/-- A running FILL or VERIFY leaves nothing behind at its end. -/
theorem State.JobsOnly.atRest_of_word {j : RunningJob} (h : s.JobsOnly)
    (hj : s.maint.run = some j) (hk : j.job.kind ≠ .retire) (ha : f.store.access = none)
    (hm : f.store.mark = s.store.mark) (hr : f.sparing.retire = s.sparing.retire)
    (hs : f.patrol.step = s.patrol.step) :
    ({ f with maint := { f.maint with run := none } } : State).AtRest := by
  have hop : s.sparing.retire = none := by
    by_contra hn
    obtain ⟨op, hop⟩ := Option.ne_none_iff_exists'.1 hn
    obtain ⟨-, k, hk', hkr, -⟩ := h.owner op hop
    cases hj.symm.trans hk'
    exact hk hkr
  refine ⟨hs.trans h.step, rfl, hr.trans hop, ?_, State.maintGranted_of_free ha⟩
  by_contra hn
  obtain ⟨a, hmark⟩ := Option.ne_none_iff_exists'.1 hn
  obtain ⟨op, h', -⟩ := h.mark a (hm ▸ hmark)
  rw [hop] at h'
  cases h'

/-- The job that awaits its FILL or VERIFY access is of that kind. -/
theorem State.wordJob_kind {a : Access} {j : RunningJob} (hs : s.maintSound)
    (ha : s.store.access = some a)
    (hk : (∃ k, a = .write .fill k .wanted) ∨ ∃ r, a = .read .verify r .wanted)
    (hj : s.maint.run = some j) : j.job.kind ≠ .retire := by
  obtain ⟨-, -, -, -, -, hacc⟩ := hs
  obtain ⟨haw, -⟩ := State.accessOwned_iff.1 hacc
  rcases hk with ⟨k, rfl⟩ | ⟨r, rfl⟩
  · rcases haw _ ha rfl rfl with h | ⟨⟨_, h⟩, -⟩ | ⟨⟨_, h⟩, -⟩
    · cases h with
      | fillWord _ j' hj' hk =>
        cases hj.symm.trans hj'
        rw [hk]
        exact nofun
    · cases h
    · cases h
  · rcases haw _ ha rfl rfl with h | ⟨⟨_, h⟩, -⟩ | ⟨⟨_, h⟩, -⟩
    · cases h with
      | verifyRead _ j' hj' hk =>
        cases hj.symm.trans hj'
        rw [hk]
        exact nofun
    · cases h
    · cases h

/-- A retire operation in progress is the running RETIRE job's, or the repairing step's (R111). -/
theorem State.maintSound_retire_cases {op : RetireOp} (hs : s.maintSound)
    (hop : s.sparing.retire = some op) :
    (op.source = .job ∧ s.JobsOnly ∧ s.Resting ∧ ∃ j, s.maint.run = some j) ∨
      op.source = .patrol ∧ ∃ st, s.Stepping st ∧ s.patrol.phase = .repairing ∧
        st.retiring = true ∧ st.address = op.address := by
  rcases State.maintSound_cases hs with ⟨hj, hr⟩ | ⟨st, hst⟩
  · obtain ⟨hsrc, j, hrun, -⟩ := hj.owner op hop
    exact .inl ⟨hsrc, hj, hr, j, hrun⟩
  · cases hst.stage with
    | claiming hph hn => rw [hop] at hn; cases hn
    | checking r hph hn => rw [hop] at hn; cases hn
    | writeBack hph hn => rw [hop] at hn; cases hn
    | retiring op' hph hop' hsrc hr haddr =>
      cases hop.symm.trans hop'
      exact .inr ⟨hsrc, st, hst, hph, hr, haddr⟩

/-- The operation goes on to its spare write, or takes a report (R112, R115). -/
theorem State.setRetire_maintSound {op op' : RetireOp} (hs : s.maintSound)
    (hop : s.sparing.retire = some op) (hg : s.maintGranted = false)
    (hsrc : op'.source = op.source) (haddr : op'.address = op.address) :
    (s.setSparing { s.sparing with retire := some op' }).maintSound := by
  rcases State.maintSound_retire_cases hs hop with
    ⟨hsj, hj, hr, -⟩ | ⟨hsp, st, hst, hph, hret, hst'⟩
  · refine State.maintSound_of_jobsOnly
      { step := hj.step
        queue := hj.queue
        owner := fun x hx => ?_
        started := nofun
        mark := fun a ha => ?_
        access := State.awaitedIs_of_not_granted (s := s.setSparing _) hg } ?_
    · cases hx
      obtain ⟨-, j, hrun, hk, hstart⟩ := hj.owner op hop
      exact ⟨hsrc.trans hsj, j, hrun, hk, hstart.trans haddr.symm⟩
    · obtain ⟨x, hx, hxa⟩ := hj.mark a ha
      cases hop.symm.trans hx
      exact ⟨op', rfl, haddr.trans hxa⟩
    · cases hr with
      | off hph ht he => exact .off hph ht he
      | pacing hd hph ht he hb => exact .pacing hd hph ht he hb
      | yielding hd hph ht he hb => exact .yielding hd hph ht he hb
  · exact State.maintSound_of_stepping (st := st)
      { step := hst.step
        device := hst.device
        run := hst.run
        timer := hst.timer
        mark := hst.mark
        stage := .retiring op' hph rfl (hsrc.trans hsp) hret (hst'.trans haddr.symm)
          (State.awaitedIs_of_not_granted (s := s.setSparing _) hg) }

/-- The operation ends, and with it the job or the step that it is of (R118, R130, R153). -/
theorem State.retireDone_maintSound {op : RetireOp} {c : RetireCopy} (hs : s.maintSound)
    (hop : s.sparing.retire = some op) (hg : s.maintGranted = false)
    (hd : s.store.device = .running) : (s.retireDone op c).maintSound := by
  unfold State.retireDone
  rcases State.maintSound_retire_cases hs hop with ⟨hsrc, hj, hr, j, hrun⟩ | ⟨hsrc, st, hst, -⟩ <;>
    rw [hsrc]
  · exact State.endRetireJob_maintSound hj.step hrun hg hd (hr.heldUp hd (busy_of_running hrun))
  · exact State.endStep_maintSound (s := s.clearRetire) hst.run rfl hg hd

theorem State.retireNoSpare_maintSound {op : RetireOp} {r : ReadResult} (hs : s.maintSound)
    (hop : s.sparing.retire = some op) (hg : s.maintGranted = false)
    (hd : s.store.device = .running) : (s.retireNoSpare op r).maintSound := by
  unfold State.retireNoSpare
  rcases State.maintSound_retire_cases hs hop with
    ⟨hsrc, hj, hr, j, hrun⟩ | ⟨hsrc, st, hst, hph, -⟩ <;> rw [hsrc]
  · exact State.endRetireJob_maintSound (s := s.raiseSparesExhausted) hj.step hrun hg hd
      (hr.heldUp hd (busy_of_running hrun))
  · have hstep : s.raiseSparesExhausted.patrol.step = some st := hst.step
    dsimp only
    unfold State.patrolNoSpare
    rw [hstep]
    dsimp only
    split
    · exact State.endStep_maintSound (s := s.raiseSparesExhausted.clearRetire) hst.run rfl hg hd
    · exact State.maintSound_of_stepping (st := { st with data := r.data, retiring := false })
        { step := rfl
          device := hd
          run := hst.run
          timer := hst.timer
          mark := hst.mark
          stage := .writeBack hph rfl rfl
            (State.awaitedIs_of_not_granted (s := s.raiseSparesExhausted.clearRetire.setPatrol _) hg) }

/-- A patrol step acts on its read (R148). -/
theorem State.patrolAct_maintSound {st : PatrolStep} {r : ReadResult} {n : Option (BitVec 8)}
    (hrun : s.maint.run = none) (ht : s.patrol.timer = none)
    (hop : s.sparing.retire = none) (hm : ∀ a, s.store.mark = some a → a = st.address)
    (hg : s.maintGranted = false) (hd : s.store.device = .running) :
    (s.patrolAct st r n).maintSound := by
  unfold State.patrolAct
  dsimp only
  split
  · split
    · next hret =>
      exact State.maintSound_of_stepping
        (st := { st with outcome := some r.outcome, data := r.data, retiring := s.patrol.retires n })
        { step := rfl
          device := hd
          run := hrun
          timer := ht
          mark := hm
          stage := .retiring ⟨st.address, .patrol, .read⟩ rfl rfl rfl hret rfl
            (State.awaitedIs_of_not_granted (s := State.setSparing _ _) hg) }
    · next hret =>
      exact State.maintSound_of_stepping
        (st := { st with outcome := some r.outcome, data := r.data, retiring := s.patrol.retires n })
        { step := rfl
          device := hd
          run := hrun
          timer := ht
          mark := hm
          stage := .writeBack rfl hop (by simpa using hret)
            (State.awaitedIs_of_not_granted (s := State.setPatrol _ _) hg) }
  · exact State.endStep_maintSound hrun hop hg hd

theorem State.granted_of_wanted {a : Access} (ha : s.store.access = some a)
    (hc : a.claimant = .maint) (hi : a.interest = .wanted) : s.maintGranted = true := by
  simp [State.maintGranted, ha, hc, hi]

/-- A patrol read that its step awaits is in progress in CHECKING (R143). -/
theorem State.Stepping.checking {st : PatrolStep} {r : ReadResult} (h : s.Stepping st)
    (ha : s.store.access = some (.read .patrol r .wanted)) :
    s.patrol.phase = .checking ∧ s.sparing.retire = none := by
  cases h.stage with
  | claiming hph hop hr hm hg =>
    rw [State.granted_of_wanted ha rfl rfl] at hg
    cases hg
  | checking r hph hop => exact ⟨hph, hop⟩
  | writeBack hph hop hr haw =>
    obtain ⟨k, hk⟩ := haw _ ha rfl rfl
    cases hk
  | retiring op hph hop hsrc hr haddr haw => cases haw _ ha rfl rfl

theorem State.Stepping.writingBack {st : PatrolStep} {k : Option Nat} (h : s.Stepping st)
    (ha : s.store.access = some (.write .writeBack k .wanted)) : s.sparing.retire = none := by
  cases h.stage with
  | claiming hph hop => exact hop
  | checking r hph hop => exact hop
  | writeBack hph hop => exact hop
  | retiring op hph hop hsrc hr haddr haw => cases haw _ ha rfl rfl

/-! ### Reports and grants (R16, R17, R115, R150) -/

theorem State.report_maintSound (hs : s.maintSound) (hg : s.maintGranted = false) (a : Addr)
    (d : Data) :
    (s.setSparing { s.sparing with retire := s.sparing.retire.map (·.report a d) }).maintSound := by
  cases hop : s.sparing.retire with
  | none =>
    have hsame : s.SameMaint (s.setSparing { s.sparing with retire := none }) :=
      ⟨rfl, rfl, hop.symm, rfl, rfl, rfl⟩
    exact hsame.maintSound hs rfl
  | some op =>
    obtain ⟨haddr, hsrc⟩ := op.report_frame a d
    exact State.setRetire_maintSound hs hop hg hsrc haddr

theorem State.reportHostWrite_maintSound (hs : s.maintSound) (hg : s.maintGranted = false)
    (hd : s.store.device = .running) (a : Addr) (d : Data) :
    (s.reportHostWrite a d).maintSound := by
  have hrep := State.report_maintSound hs hg a d
  unfold State.reportHostWrite
  generalize hu : s.setSparing { s.sparing with retire := s.sparing.retire.map (·.report a d) } = u
    at hrep ⊢
  have hgu : u.maintGranted = false := by rw [← hu]; exact hg
  have hdu : u.store.device = .running := by rw [← hu]; exact hd
  rcases u.cancelStep_cases a with ⟨he, -⟩ | ⟨st, hst, -, ⟨-, he⟩ | ⟨hph, hret, he⟩⟩ <;> rw [he]
  · exact hrep
  · have h := State.stepping_of_maintSound hrep hst
    refine State.maintSound_of_stepping (st := { st with cancel := true })
      { step := rfl
        device := hdu
        run := h.run
        timer := h.timer
        mark := h.mark
        stage := ?_ }
    cases h.stage with
    | claiming hph hop hr hm hg => exact .claiming hph hop hr hm hg
    | checking r hph hop hr ha => exact .checking r hph hop hr ha
    | writeBack hph hop hr ha => exact .writeBack hph hop hr ha
    | retiring op hph hop hsrc hr haddr ha =>
      exact .retiring op hph hop hsrc hr haddr (ha.congr rfl fun _ haw => haw.congr rfl rfl)
  · have h := State.stepping_of_maintSound hrep hst
    refine State.endStep_maintSound (s := { u with store := { u.store with maintWait := 0 } })
      h.run ?_ hgu hdu
    cases h.stage with
    | claiming _ hop => exact hop
    | checking _ _ hop => exact hop
    | writeBack _ hop => exact hop
    | retiring op _ _ _ hr => rw [hret] at hr; cases hr

/-- A granted access of a job or a retire operation (R112, R113, R128, R129). -/
theorem State.jobGrant_maintSound {a : Access} (hs : s.maintSound) (hn : s.store.access = none)
    (ht : t.store.access = some a) (hd : t.store.device = s.store.device)
    (hr : t.sparing.retire = s.sparing.retire) (hma : t.maint = s.maint) (hp : t.patrol = s.patrol)
    (hm : t.store.mark = s.store.mark ∨
      ∃ op, s.sparing.retire = some op ∧ t.store.mark = some op.address)
    (hjob : s.JobAwaits a) : t.maintSound := by
  have haw : t.AwaitedIs t.JobAwaits := fun b hb _ _ => by
    cases ht.symm.trans hb
    exact hjob.congr hr (by rw [hma])
  rcases State.maintSound_cases hs with ⟨hj, hrest⟩ | ⟨st, hst⟩
  · refine State.maintSound_of_jobsOnly
      { step := hp ▸ hj.step
        queue := hma ▸ hj.queue
        owner := hr ▸ hma ▸ hj.owner
        started := hr ▸ hma ▸ hj.started
        mark := fun x hx => ?_
        access := haw } ?_
    · rw [hr]
      rcases hm with hm | ⟨op, hop, hm⟩
      · exact hj.mark x (hm ▸ hx)
      · cases hm.symm.trans hx
        exact ⟨op, hop, rfl⟩
    · cases hrest with
      | off hph htm he => exact .off (hp ▸ hph) (hp ▸ htm) fun h => hp ▸ he (hd ▸ h)
      | pacing h hph htm he hb =>
        exact .pacing (hd.trans h) (hp ▸ hph) (hp ▸ htm) (hp ▸ he) (hma ▸ hb)
      | yielding h hph htm he hb =>
        exact .yielding (hd.trans h) (hp ▸ hph) (hp ▸ htm) (hp ▸ he) (hma ▸ hb)
  · cases hst.stage with
    | retiring op hph hop hsrc hret haddr =>
      refine State.maintSound_of_stepping (st := st)
        { step := hp ▸ hst.step
          device := hd.trans hst.device
          run := hma ▸ hst.run
          timer := hp ▸ hst.timer
          mark := fun x hx => ?_
          stage := .retiring op (hp ▸ hph) (hr.trans hop) hsrc hret haddr haw }
      rcases hm with hm | ⟨op', hop', hm⟩
      · exact hst.mark x (hm ▸ hx)
      · cases hm.symm.trans hx
        cases hop.symm.trans hop'
        exact haddr.symm
    | claiming hph hop =>
      cases hjob with
      | retireRead r op h => rw [hop] at h; cases h
      | spareWrite k op h => rw [hop] at h; cases h
      | fillWord k j h => rw [hst.run] at h; cases h
      | verifyRead r j h => rw [hst.run] at h; cases h
    | checking r hph hop hret ha => rw [hn] at ha; cases ha
    | writeBack hph hop =>
      cases hjob with
      | retireRead r op h => rw [hop] at h; cases h
      | spareWrite k op h => rw [hop] at h; cases h
      | fillWord k j h => rw [hst.run] at h; cases h
      | verifyRead r j h => rw [hst.run] at h; cases h

theorem State.Grant.maintSound (hg : s.Grant t) (hd : s.store.device = .running)
    (hn : s.store.access = none) (hs : s.maintSound) : t.maintSound := by
  have hfree := State.maintGranted_of_free hn
  have hother : ∀ {t : State}, s.SameMaint t → t.maintGranted = false → t.maintSound :=
    fun h ht => h.maintSound_of_other hs hfree ht
  cases hg with
  | lookup => exact hother ⟨rfl, rfl, rfl, rfl, rfl, rfl⟩ rfl
  | prefetch => exact hother ⟨rfl, rfl, rfl, rfl, rfl, rfl⟩ rfl
  | refused => exact hother ⟨rfl, rfl, rfl, rfl, rfl, rfl⟩ rfl
  | taken => exact hother ⟨rfl, rfl, rfl, rfl, rfl, rfl⟩ rfl
  | reported p =>
    exact State.reportHostWrite_maintSound (s := s.takenWrite p)
      (hother ⟨rfl, rfl, rfl, rfl, rfl, rfl⟩ rfl) rfl hd _ _
  | verifyRead a hgr hw =>
    cases hw with
    | verifyRead j hop hj hk =>
      exact State.jobGrant_maintSound hs hn rfl rfl rfl rfl rfl (.inl rfl) (.verifyRead _ j hj hk)
  | retireRead a hgr hw =>
    cases hw with
    | retireRead op hop hph =>
      exact State.jobGrant_maintSound hs hn rfl rfl rfl rfl rfl (.inr ⟨op, hop, rfl⟩)
        (.retireRead _ op hop hph)
  | spareWrite k d hgr hw =>
    cases hw with
    | spareWrite op c hop hph =>
      exact State.jobGrant_maintSound hs hn rfl rfl rfl rfl rfl (.inl rfl)
        (.spareWrite _ op hop (by rw [hph]; exact nofun))
  | patrolRead a hgr hw =>
    cases hw with
    | patrolRead st hop hj hph hst =>
      have h := State.stepping_of_maintSound hs hst
      have hret : st.retiring = false := by
        cases h.stage with
        | claiming _ _ hr => exact hr
        | checking _ _ _ hr => exact hr
        | writeBack _ _ hr => exact hr
        | retiring op _ h' => rw [hop] at h'; cases h'
      exact State.maintSound_of_stepping (st := st)
        { step := hst
          device := hd
          run := hj
          timer := h.timer
          mark := fun a ha => (Option.some.inj ha).symm
          stage := .checking _ rfl hop hret rfl }
  | maintWrite tag a d hgr hw =>
    cases hw with
    | fillWord j hop hj hk =>
      exact State.jobGrant_maintSound hs hn rfl rfl rfl rfl rfl (.inl rfl) (.fillWord _ j hj hk)
    | writeBack st hop hj hph hst hr =>
      have h := State.stepping_of_maintSound hs hst
      exact State.maintSound_of_stepping (st := st)
        { step := hst
          device := hd
          run := hj
          timer := h.timer
          mark := h.mark
          stage := .writeBack hph hop hr fun b hb _ _ => ⟨_, (Option.some.inj hb).symm⟩ }

/-! ### Every step -/

theorem State.deviceReset_maintSound (s : State) (m : List (Nat × StoredWord)) (k : Option Nat)
    (b : Bool) : (s.deviceReset m k b).maintSound :=
  State.maintSound_of_jobsOnly (State.AtRest.jobsOnly ⟨rfl, rfl, rfl, rfl, rfl⟩ rfl)
    (.off rfl rfl fun h => DeviceState.noConfusion h)

theorem State.Quiet.maintSound (h : s.Quiet o t) (hq : s.startUpQuiet) (hs : s.maintSound) :
    t.maintSound := by
  have hsame : ∀ {t : State}, s.SameMaint t → t.store.access = s.store.access → t.maintSound :=
    fun h ha => h.maintSound hs ha
  cases h with
  | pinReset => exact State.deviceReset_maintSound _ _ _ _
  | powerOn => exact State.deviceReset_maintSound _ _ _ _
  | fillLast k hf =>
    obtain ⟨hup, hrun⟩ := State.startUpQuiet_iff.1 hq
    cases hd : s.store.device with
    | running =>
      obtain ⟨hn, -⟩ := hrun hd
      rw [hf] at hn
      cases hn
    | startUp =>
      obtain ⟨hi, -⟩ := hup hd
      have hj : s.JobsOnly := by
        rcases State.maintSound_cases hs with ⟨hj, -⟩ | ⟨st, hst⟩
        · exact hj
        · rw [hst.device] at hd
          cases hd
      have hj' : ({ s with
          store := { s.store with
            mem := memWrite s.store.mem k StoredWord.zero, device := .running, fill := none }
          host := { s.host with
            outcome := .none, flags := { s.host.flags with startDone := true } } } :
          State).JobsOnly := hj.congr hj.step hj.queue rfl rfl rfl rfl
      exact hj'.resume rfl
  | linkTimeout d =>
    refine hsame ⟨?_, ?_, ?_, ?_, ?_, ?_⟩ ?_ <;> simp
  | _ => exact hsame ⟨rfl, rfl, rfl, rfl, rfl, rfl⟩ rfl

theorem State.Active.maintSound (h : s.Active o v) (hq : s.startUpQuiet) (hs : s.maintSound) :
    v.maintSound := by
  have hsame : ∀ {t : State}, s.SameMaint t → t.store.access = s.store.access → t.maintSound :=
    fun h ha => h.maintSound hs ha
  have hother : ∀ {t : State} {a : Access}, s.store.access = some a → a.claimant ≠ .maint →
      s.SameMaint t → t.store.access = none → t.maintSound := fun ha hc h hn =>
    h.maintSound_of_other hs (State.maintGranted_of_other ha hc) (State.maintGranted_of_free hn)
  have hdiscard : ∀ {t : State}, t.store = s.discardPrefetch → s.SameMaint t → t.maintSound := by
    intro t ht h
    rcases State.discardPrefetch_access (s := s) with ⟨r, hr, hd⟩ | ⟨-, hd⟩
    · exact h.maintSound_of_other hs (State.maintGranted_of_other hr nofun)
        (State.maintGranted_of_other (a := .read .prefetch r .stale) (by rw [ht, hd]) nofun)
    · exact hsame h (by rw [ht, hd])
  have hnotChecking : ∀ {a : Access}, s.store.access = some a →
      (∀ r, a ≠ .read .patrol r .wanted) → s.patrol.phase ≠ .checking := fun ha hne hp => by
    obtain ⟨-, -, -, -, -, hacc⟩ := hs
    obtain ⟨r, hr⟩ := (State.accessOwned_iff.1 hacc).2 hp
    cases ha.symm.trans hr
    exact hne r rfl
  have hfiled : ∀ {f : State} {a : Access}, s.store.access = some a →
      (∀ r, a ≠ .read .patrol r .wanted) → (s.setAccess none).Filed f → f.maintSound :=
    fun ha hne hf => hf.sameMaint.maintSound_of_free hs (hnotChecking ha hne)
      (State.maintGranted_of_free hf.free)
  obtain ⟨-, hdev, hmark, -⟩ := State.discardPrefetch_frame (s := s)
  cases h with
  | answered w r h => exact hsame ⟨by simp, by simp, by simp, by simp, by simp, by simp⟩ (by simp)
  | frame w => exact hsame ⟨by simp, by simp, by simp, by simp, by simp, by simp⟩ (by simp)
  | bind w => exact hsame ⟨by simp, by simp, by simp, by simp, by simp, by simp⟩ (by simp)
  | timers st p f hst hp =>
    have hp' := State.paced_maintSound hs hp
    exact State.SameMaint.maintSound (s := { s with patrol := p })
      ⟨rfl, rfl, rfl, rfl, rfl, rfl⟩ hp' rfl
  | linkReset =>
    have h : s.SameMaint (s.discardSlots.setLink { s.discardSlots.link with linkRst := true }) :=
      ⟨by simp, by simp, by simp, by simp, by simp, by simp⟩
    rcases State.accessAfterLinkReset_cases (s := s) with ha | ⟨hl, ha⟩
    · exact hsame h (by simp [ha])
    · obtain ⟨a, hacc, hc⟩ := State.accessOf_iff.1 hl
      refine h.maintSound_of_other hs (State.maintGranted_of_other hacc (by rw [hc]; exact nofun)) ?_
      refine State.maintGranted_of_other (a := a.discard) (by simp [ha, hacc]) ?_
      rw [Access.claimant_discard, hc]
      exact nofun
  | firstRead r i p ch n ha =>
    have hf := State.fileRead_filed (s := s.setAccess none) r .lookup (some ch)
    obtain ⟨h1, h2, h3, h4, h5, h6⟩ := hf.sameMaint
    exact hother ha nofun ⟨h1, h2, h3, h4, h5, h6⟩ hf.free
  | lastRead r i p ch n y ha =>
    have hf := State.fileRead_filed (s := s.setAccess none) r .lookup (some ch)
    obtain ⟨h1, h2, h3, h4, h5, h6⟩ := hf.sameMaint
    refine hother ha nofun ⟨?_, ?_, ?_, ?_, ?_, ?_⟩ ?_ <;> simp only [State.completeLookup_frame]
    · exact h1
    · exact h2
    · exact h3
    · exact h4
    · exact h5
    · exact h6
    · exact hf.free
  | drained r i ch b g q ha he hq =>
    rcases hq with rfl | rfl <;>
      exact hother ha nofun ⟨by simp, by simp, by simp, by simp, by simp, by simp⟩ (by simp)
  | prefetched r i ha =>
    exact hother ha nofun ⟨by simp, by simp, by simp, by simp, by simp, by simp⟩ (by simp)
  | postDone k i ha => exact hother ha nofun ⟨rfl, rfl, rfl, rfl, rfl, rfl⟩ rfl
  | postNext k i w ha =>
    obtain ⟨-, hdev', hmark', -⟩ := State.discardPrefetch_frame (s := s.setAccess none)
    exact hother ha nofun ⟨hdev', hmark', rfl, rfl, rfl, rfl⟩ 
      (State.discardPrefetch_of_free (s := s.setAccess none) rfl)
  | freed a c ha hc hl hp =>
    refine State.SameMaint.maintSound_of_free (s := s) ⟨rfl, rfl, rfl, rfl, rfl, rfl⟩ hs
      (fun hph => ?_) rfl
    obtain ⟨⟨-, hstep, -⟩, -, -, -, -, hacc⟩ := hs
    obtain ⟨r, hr⟩ := (State.accessOwned_iff.1 hacc).2 hph
    cases ha.symm.trans hr
    have := hstep.2 (.inr (.inl hph))
    rw [hp r rfl] at this
    cases this
  | wordEnd a c f j j' out ha hc hk hf hj =>
    have hd := State.running_of_access hq ha
    obtain ⟨hjobs, hrest⟩ := State.jobsOnly_of_run hs hj
    have h := hf.sameMaint
    refine State.endJob_maintSound ?_ (h.device.trans hd)
      (h.patrol ▸ hrest.heldUp hd (busy_of_running hj))
    exact hjobs.atRest_of_word hj (State.wordJob_kind hs ha hk hj) hf.free h.mark h.retire
      (congrArg Patrol.step h.patrol)
  | wordNext a c f j j' ha hc hk hf hj hj' =>
    have hfs := hfiled ha (by rcases hk with ⟨k, rfl⟩ | ⟨r, rfl⟩ <;> exact nofun) hf
    have h := hf.sameMaint
    have hfj : f.maint.run = some j := h.run.trans hj
    obtain ⟨hjobs, hrest⟩ := State.jobsOnly_of_run hfs hfj
    have hd := h.device.trans (State.running_of_access hq ha)
    exact State.maintSound_of_jobsOnly
      (hjobs.congr hjobs.step (fun _ => rfl) rfl rfl rfl (by simp [hfj, hj']))
      (State.Resting.of_heldUp hd (busy_of_running rfl) (hrest.heldUp hd (busy_of_running hfj)))
  | retireAlloc r f op c ha hop hf =>
    exact State.setRetire_maintSound (hfiled ha nofun hf) (hf.sameMaint.retire.trans hop)
      (State.maintGranted_of_free hf.free) rfl rfl
  | retireNoSpare r f op ha hop hf =>
    exact State.retireNoSpare_maintSound (hfiled ha nofun hf) (hf.sameMaint.retire.trans hop)
      (State.maintGranted_of_free hf.free)
      (hf.sameMaint.device.trans (State.running_of_access hq ha))
  | commit k op c ha hop =>
    have hcommit : s.SameMaint ((s.setAccess none).mapCommit op.address c) :=
      ⟨by simp, by simp, by simp [Sparing.commit_retire], by simp, by simp, by simp⟩
    have hfree : ((s.setAccess none).mapCommit op.address c).maintGranted = false :=
      State.maintGranted_of_free (by simp)
    exact State.retireDone_maintSound
      (hcommit.maintSound_of_free hs (hnotChecking ha nofun) hfree) (hcommit.retire.trans hop) hfree
      (hcommit.device.trans (State.running_of_access hq ha))
  | patrolRead r f st n ha hst hf =>
    have hstep := State.stepping_of_maintSound hs hst
    have h := hf.sameMaint
    obtain ⟨-, hop⟩ := hstep.checking ha
    exact State.patrolAct_maintSound (h.run.trans hstep.run) (h.patrol ▸ hstep.timer)
      (h.retire.trans hop) (fun a hm => hstep.mark a (h.mark ▸ hm))
      (State.maintGranted_of_free hf.free) (h.device.trans hstep.device)
  | writeBack k st ha hst =>
    have hstep := State.stepping_of_maintSound hs hst
    exact State.endStep_maintSound (s := s.setAccess none) hstep.run (hstep.writingBack ha) rfl
      hstep.device
  | movePointer a => exact hdiscard rfl ⟨hdev, hmark, rfl, rfl, rfl, rfl⟩
  | post w => exact hdiscard rfl ⟨hdev, hmark, rfl, rfl, rfl, rfl⟩
  | tableRead => exact hsame ⟨rfl, rfl, rfl, rfl, rfl, rfl⟩ rfl
  | tableStart => exact hsame ⟨rfl, rfl, rfl, rfl, rfl, rfl⟩ rfl
  | patrolCtrl d => exact State.writeCtrl_maintSound hs d
  | job kind start count value hd =>
    exact State.SameMaint.maintSound ⟨rfl, rfl, rfl, rfl, rfl, rfl⟩ (State.accept_maintSound hs hd) rfl
  | abort hd =>
    split
    · exact State.SameMaint.maintSound ⟨rfl, rfl, rfl, rfl, rfl, rfl⟩
        (State.abort_maintSound (w := 0) hs hd) rfl
    · exact State.SameMaint.maintSound ⟨rfl, rfl, rfl, rfl, rfl, rfl⟩
        (State.abort_maintSound (w := s.store.maintWait) hs hd) rfl
  | softReset => exact State.softReset_maintSound s

/-- Settles O60: between steps and during one the engine's records say whose access, mark and retire
operation each is, and every event hands them on. -/
theorem stepKeepsTheMaintenanceEngineSound : Obligations.StepKeepsTheMaintenanceEngineSound := by
  unfold Obligations.StepKeepsTheMaintenanceEngineSound
  intro s t hs hq h
  have hsound : t.maintSound ∧ t.startUpQuiet :=
    step_keeps (P := fun s => s.maintSound ∧ s.startUpQuiet) (fun s h => h)
      (fun s t hd hn hg ⟨hs, hq⟩ => ⟨hg.maintSound hd hn hs, hg.startUpQuiet hd hq⟩)
      (fun o s t hqt ⟨hs, hq⟩ => ⟨hqt.maintSound hq hs, hqt.startUpQuiet hq⟩)
      (fun o s v hv ⟨hs, hq⟩ => ⟨hv.maintSound hq hs, hv.startUpQuiet hq⟩) h ⟨hs, hq⟩
  exact hsound.1

end

end Sys2Proof.Machine

namespace Sys2Proof.Machine

/-! PROOFS. Waiting claims (2.5): what can be granted is granted at the event that presents it. -/

section
variable {s t v u : State} {o : Option Instr}

/-- No claim waits. -/
def State.NoClaim (s : State) : Prop :=
  s.hostClaim = none ∧ s.maintClaim = none ∧ s.lookupClaim = none

theorem State.choose_eq_none_iff : s.choose = none ↔ s.NoClaim := by
  unfold State.choose State.NoClaim
  cases s.hostClaim <;> cases s.maintClaim <;> cases s.lookupClaim <;>
    cases s.hostDue <;> cases s.maintDue <;> simp

/-- While the store is free in RUNNING, no claim waits (R11). -/
def State.Settled (s : State) : Prop :=
  s.store.device = .running → s.store.access = none → s.choose = none

theorem State.Grant.busy (hg : s.Grant t) : t.store.access ≠ none := by
  cases hg with
  | reported p => simp [State.takenWrite]
  | _ => exact Option.some_ne_none _

/-- The arbiter's turn leaves no claim waiting that it could grant. -/
theorem State.settle_settled (s : State) : s.settle.Settled := by
  intro hd ha
  by_contra hc
  obtain ⟨c, hc⟩ := Option.ne_none_iff_exists'.1 hc
  have hgrant := State.grant_of_choose hc
  rw [← State.settle_of_choose hd ha hc, State.settle_settle] at hgrant
  exact hgrant.busy ha

theorem State.Settled.noIdleClaim (h : s.Settled) : s.noIdleClaim := fun hd ha c hc => by
  rw [h hd ha] at hc
  cases hc

theorem State.Settled.noGrantOwed (h : s.Settled) : s.noGrantOwed := fun hd ha => by
  by_contra hw
  obtain ⟨a, -, hc⟩ := s.choose_of_onlyTheStepWaits (by simpa using hw)
  rw [h hd ha] at hc
  cases hc

/-! ### Events without the arbiter's turn -/

/-- The records that the claims come from are as they were (log entry 8). -/
structure State.SameClaims (s t : State) : Prop where
  access : t.store.access = s.store.access
  engine : t.engine = s.engine
  reading : readingSlot t.link.queue = readingSlot s.link.queue
  posted : t.host.posted = s.host.posted
  holder : t.host.holder = s.host.holder
  retire : t.sparing.retire = s.sparing.retire
  run : t.maint.run = s.maint.run
  patrol : t.patrol = s.patrol

theorem State.accessOf_congr (h : t.store.access = s.store.access) (c : Claimant) :
    t.accessOf c = s.accessOf c := by rw [State.accessOf, State.accessOf, h]

theorem State.SameClaims.noClaim (h : s.SameClaims t) (hs : s.NoClaim) : t.NoClaim := by
  have hwants : t.lookupWants = s.lookupWants := by
    unfold State.lookupWants
    rw [h.engine, h.reading]
  have hhost : t.hostClaim = s.hostClaim := by
    unfold State.hostClaim
    rw [State.accessOf_congr h.access, h.posted, h.holder]
  have hmaint : t.maintClaim = s.maintClaim := by
    unfold State.maintClaim State.maintWants
    rw [State.maintGranted_congr h.access, h.retire, h.run, h.patrol]
  have hlookup : t.lookupClaim = s.lookupClaim := by
    unfold State.lookupClaim
    rw [State.accessOf_congr h.access, hwants]
  unfold State.NoClaim
  rw [hhost, hmaint, hlookup]
  exact hs

theorem State.SameClaims.settled (h : s.SameClaims t) (hd : t.store.device = s.store.device)
    (hs : s.Settled) : t.Settled := fun hr ha =>
  State.choose_eq_none_iff.2
    (h.noClaim (State.choose_eq_none_iff.1 (hs (hd ▸ hr) (h.access ▸ ha))))

theorem readingSlot_cons_done {sl : Slot} {rest : List Slot} (h : sl.isDone = true) :
    readingSlot (sl :: rest) = readingSlot rest := by
  simp only [readingSlot]
  cases hp : sl.phase <;> simp_all [Slot.isDone]

theorem Patrol.resume_phase (p : Patrol) (b : Bool) : (p.resume b).phase ≠ .repairing := by
  unfold Patrol.resume
  split
  · exact nofun
  · split
    · exact nofun
    · split <;> exact nofun

/-- At the end of the start-up fill a step's claiming read is the only claim that can wait (R179). -/
theorem State.IdleBlocks.fillLast_noIdleClaim (hi : s.IdleBlocks) (ht : s.SameClaims u)
    (hp : t = { u with patrol := s.patrol.resume s.maint.busy }) : t.noIdleClaim := by
  have hfree : u.store.access = none := ht.access.trans hi.access
  have hhost : t.hostClaim = none := by
    simp [hp, State.hostClaim, State.accessOf, hfree, ht.posted, ht.holder, hi.posted, hi.holder]
  have hlookup : t.lookupClaim = none := by
    simp [hp, State.lookupClaim, State.lookupWants, State.accessOf, hfree, ht.engine, hi.engine]
  intro _ _ c hc
  right
  cases hm : t.maintClaim with
  | none =>
    rw [State.choose_eq_none_iff.2 ⟨hhost, hm, hlookup⟩] at hc
    cases hc
  | some m =>
    obtain ⟨-, hw⟩ := State.maintClaim_eq_some hm
    cases hw with
    | retireRead op hop => rw [hp, ht.retire, hi.retire] at hop; cases hop
    | spareWrite op c hop => rw [hp, ht.retire, hi.retire] at hop; cases hop
    | fillWord j hop hj => rw [hp, ht.run, hi.run] at hj; cases hj
    | verifyRead j hop hj => rw [hp, ht.run, hi.run] at hj; cases hj
    | patrolRead st hop hj hph hst => simp [State.onlyTheStepWaits, hm, hhost, hlookup]
    | writeBack st hop hj hph =>
      rw [hp] at hph
      exact absurd hph (Patrol.resume_phase _ _)

/-- An event without the arbiter's turn presents no claim, but for the step that the end of the start-up
fill starts (log entry 22). -/
theorem State.Quiet.settled (h : s.Quiet o t) (hq : s.startUpQuiet) (hs : s.Settled) :
    t.Settled ∨ o = some .startUpFillWriteCompletion ∧ t.noIdleClaim := by
  have hsame : ∀ {t : State}, s.SameClaims t → t.store.device = s.store.device →
      t.Settled ∨ o = some .startUpFillWriteCompletion ∧ t.noIdleClaim :=
    fun h hd => .inl (h.settled hd hs)
  cases h with
  | pinReset => exact .inl nofun
  | powerOn => exact .inl nofun
  | fillLast k hk =>
    obtain ⟨hup, hrun⟩ := State.startUpQuiet_iff.1 hq
    cases hd : s.store.device with
    | running =>
      obtain ⟨hn, -⟩ := hrun hd
      rw [hk] at hn
      cases hn
    | startUp =>
      obtain ⟨hi, -⟩ := hup hd
      exact .inr ⟨rfl, hi.fillLast_noIdleClaim
        (u := { s with
          store := { s.store with
            mem := memWrite s.store.mem k StoredWord.zero, device := .running, fill := none }
          host := { s.host with
            outcome := .none, flags := { s.host.flags with startDone := true } } })
        ⟨rfl, rfl, rfl, rfl, rfl, rfl, rfl, rfl⟩ rfl⟩
  | delivery sl rest w hq hd =>
    refine hsame ⟨rfl, rfl, ?_, rfl, rfl, rfl, rfl, rfl⟩ rfl
    rw [hq, readingSlot_cons_done hd]
    simp
  | linkTimeout d =>
    obtain ⟨g, hg⟩ := State.checkStall_host (s := s.setLink { s.link with timeout := d })
    exact hsame ⟨by simp, by simp, by simp, (congrArg HostPort.posted hg).trans rfl,
      (congrArg HostPort.holder hg).trans rfl, by simp, by simp, by simp⟩ (by simp)
  | registers h out hp => exact hsame ⟨rfl, rfl, rfl, hp.posted, hp.holder, rfl, rfl, rfl⟩ rfl
  | channel ch c h hp => exact hsame ⟨rfl, rfl, rfl, hp.posted, hp.holder, rfl, rfl, rfl⟩ rfl
  | errors q h hp => exact hsame ⟨rfl, rfl, rfl, hp.posted, hp.holder, rfl, rfl, rfl⟩ rfl
  | popCompletion r rest h hp => exact hsame ⟨rfl, rfl, rfl, hp.posted, hp.holder, rfl, rfl, rfl⟩ rfl
  | _ => exact hsame ⟨rfl, rfl, rfl, rfl, rfl, rfl, rfl, rfl⟩ rfl

/-! ### Events with the arbiter's turn -/

/-- After the arbiter's turn no claim waits but one that the next command withdraws (log entry 21). -/
theorem State.Ends.noIdleClaim (h : v.Ends t) : t.noIdleClaim ∧ t.noGrantOwed := by
  have hsettle : v.settle.noIdleClaim ∧ v.settle.noGrantOwed :=
    ⟨v.settle_settled.noIdleClaim, v.settle_settled.noGrantOwed⟩
  cases h with
  | settle => exact hsettle
  | lookup p e he =>
    rcases v.settleTogether_cases .lookup with ⟨hc, hw, ht⟩ | ⟨-, ht⟩ <;> rw [ht]
    · refine ⟨fun _ _ c hc' => ?_, fun _ _ => ?_⟩
      · cases hc.symm.trans hc'
        exact .inl hw
      · by_contra hstep
        obtain ⟨a, -, hm⟩ := v.choose_of_onlyTheStepWaits (by simpa using hstep)
        cases hc.symm.trans hm
    · exact hsettle
  | maint j hj =>
    rcases v.settleTogether_cases .maint with ⟨hc, hw, ht⟩ | ⟨-, ht⟩ <;> rw [ht]
    · refine ⟨fun _ _ c hc' => ?_, fun _ _ => ?_⟩
      · cases hc.symm.trans hc'
        exact .inl hw
      · by_contra hstep
        obtain ⟨a, hm, -⟩ := v.choose_of_onlyTheStepWaits (by simpa using hstep)
        obtain ⟨-, hwants⟩ := State.maintClaim_eq_some hm
        cases hwants with
        | patrolRead st hop hr =>
          rw [hj] at hr
          cases hr
    · exact hsettle

/-- A command that withdraws the arbiter's choice ends with the arbiter's turn itself (R87, R137). -/
theorem exec_of_withdrawal {c : Instr} {rest : List Instr} {k : Claimant}
    (hp : s.pending = c :: rest) (hw : s.withdrawalWaits k = true) (hd : u.store.device = .running)
    (hst : u.host.stretch = s.host.stretch) (h : exec c u = .next t) : ∃ v : State, t = v.settle := by
  unfold State.withdrawalWaits at hw
  rw [hp] at hw
  have hfree : s.host.stretch.isNone = true → u.host.stretch = none := fun hn => by
    rw [hst]
    exact Option.isNone_iff_eq_none.1 hn
  split at hw
  · next hc =>
    cases hc
    cases h
    exact ⟨_, rfl⟩
  · next low _ hc =>
    cases hc
    have he : exec (.softReset low) u = _ := State.command_of_running (hfree hw) hd _
    rw [he] at h
    cases h
    exact ⟨_, rfl⟩
  · next low _ hc =>
    cases hc
    have he : exec (.abortJobs low) u = _ := State.command_of_running (hfree hw) hd _
    rw [he] at h
    cases h
    exact ⟨_, rfl⟩
  · cases hw

/-- A sound state settles with its owed grant made, but for the claim that the front command withdraws. -/
theorem State.grantOwed_settled (h : s.noIdleClaim) : s.popped.grantOwed.Settled ∨
    s.store.device = .running ∧ ∃ k, s.withdrawalWaits k = true := by
  by_cases hw : ∃ k, s.withdrawalWaits k = true
  · cases hd : s.store.device with
    | startUp =>
      refine .inl fun hr _ => ?_
      simp only [State.grantOwed_frame] at hr
      exact DeviceState.noConfusion (hd.symm.trans hr)
    | running => exact .inr ⟨rfl, hw⟩
  · refine .inl ?_
    unfold State.grantOwed
    split
    · exact s.popped.settle_settled
    · next hstep =>
      intro hd ha
      by_contra hc
      obtain ⟨c, hc⟩ := Option.ne_none_iff_exists'.1 hc
      rcases h hd ha c hc with h | h
      · exact hw ⟨c, h⟩
      · exact hstep h

/-- Settles O52: the arbiter's turn ends every event that can present a claim, and the events without it
present none. -/
theorem stepLeavesNoClaimWaitingOnAFreeStore : Obligations.StepLeavesNoClaimWaitingOnAFreeStore := by
  unfold Obligations.StepLeavesNoClaimWaitingOnAFreeStore
  intro s t hs hq h
  have hqu : s.popped.grantOwed.startUpQuiet :=
    State.grantOwed_keeps (P := State.startUpQuiet) (fun s t hd _ hg => hg.startUpQuiet hd) hq
  rcases State.grantOwed_settled hs with hsettled | ⟨hd, k, hw⟩
  · rcases effect_of_step h with hquiet | ⟨v, -, hends⟩
    · rcases hquiet.settled hqu hsettled with ht | ⟨ho, ht⟩
      · exact ⟨ht.noIdleClaim, fun _ => ht.noGrantOwed⟩
      · exact ⟨ht, fun hne => absurd (List.head?_eq_some_iff.1 ho) (by simpa using hne)⟩
    · obtain ⟨hidle, howed⟩ := hends.noIdleClaim
      exact ⟨hidle, fun _ => howed⟩
  · cases hp : s.pending with
    | nil => simp [State.withdrawalWaits, hp] at hw
    | cons c rest =>
      have he : exec c s.popped = .next t := by
        unfold step at h
        rw [hp] at h
        rw [State.popped, hp]
        exact h
      obtain ⟨v, rfl⟩ := exec_of_withdrawal (u := s.popped) hp hw hd rfl he
      exact ⟨v.settle_settled.noIdleClaim, fun _ => v.settle_settled.noGrantOwed⟩

end

end Sys2Proof.Machine

namespace Sys2Proof.Machine

/-! PROOFS. The machine (1.5): commands, ticks and the reset state. -/

section
variable {s t v u : State} {o : Option Instr}

/-- Settles O1, by the definition of a step. -/
theorem stepTakesTheFrontCommand : Obligations.StepTakesTheFrontCommand := by
  unfold Obligations.StepTakesTheFrontCommand
  exact fun _ _ => rfl

/-! ### The waiting commands and the level of LINK_RST -/

theorem State.Quiet.queueAndLevel (h : s.Quiet o t) (ho : o ≠ some .linkRstRelease) :
    t.pending = s.pending ∧ t.link.linkRst = s.link.linkRst := by
  cases h with
  | linkRstRelease => exact absurd rfl ho
  | linkTimeout => simp
  | delivery => simp
  | _ => exact ⟨rfl, rfl⟩

theorem State.Active.queueAndLevel (h : s.Active o v) (ho : o ≠ some .linkRstAssert) :
    v.pending = s.pending ∧ v.link.linkRst = s.link.linkRst := by
  have hfiled : ∀ f, (s.setAccess none).Filed f → f.pending = s.pending ∧ f.link = s.link :=
    fun f hf => by
      obtain ⟨-, -, hl, -, -, -, -, -, -, hp⟩ := hf.frame
      exact ⟨hp, hl⟩
  cases h with
  | linkReset => exact absurd rfl ho
  | lastRead r i p ch n y => simp [State.completeLookup]
  | drained r i ch b g q ha he hq => rcases hq with rfl | rfl <;> simp
  | wordEnd a c f j j' out ha hc hk hf => simp [hfiled f hf]
  | wordNext a c f j j' ha hc hk hf => simp [hfiled f hf]
  | retireAlloc r f op c ha hop hf => simp [hfiled f hf]
  | retireNoSpare r f op ha hop hf => simp [hfiled f hf]
  | patrolRead r f st n ha hst hf => simp [hfiled f hf]
  | abort => split <;> simp
  | _ => simp [State.movePointer_eq, State.endTableRead_eq, State.postWrite_eq, State.softReset]

theorem State.Effect.queueAndLevel (h : s.Effect o t) (ha : o ≠ some .linkRstAssert)
    (hr : o ≠ some .linkRstRelease) :
    t.pending = s.pending ∧ t.link.linkRst = s.link.linkRst := by
  rcases h with hq | ⟨v, hv, he⟩
  · exact hq.queueAndLevel hr
  · have hvs := hv.queueAndLevel ha
    rcases he.cases with rfl | rfl
    · exact hvs
    · simpa using hvs

/-- A command finds the owed grant made: each is an event, which makes it first (R11). -/
theorem exec_grantOwed (c : Instr) (s : State) : exec c s = exec c s.grantOwed := by
  cases c <;>
    · conv_lhs => whnf
      conv_rhs => whnf
      rw [State.grantOwed_grantOwed]

/-- Settles O2, by the effect of each command on the state with the owed grant made. -/
theorem everyCommandCompletes : Obligations.EveryCommandCompletes := by
  unfold Obligations.EveryCommandCompletes
  refine ⟨fun c s => ?_, fun s => ⟨State.grantOwed_of_noGrantOwed, State.grantOwed_noGrantOwed,
    fun hn => ?_, fun c => exec_grantOwed c s, fun hp => ?_⟩⟩
  · have hother : c ≠ .linkRstAssert → c ≠ .linkRstRelease → ∃ t, exec c s = .next t ∧
        t.pending = s.pending ∧ t.link.linkRst = s.link.linkRst := fun ha hr => by
      obtain ⟨t, he, heff⟩ := exec_effect c s
      have hl := heff.queueAndLevel (by simpa using ha) (by simpa using hr)
      exact ⟨t, he, by simpa using hl⟩
    cases c with
    | linkRstAssert => exact ⟨_, rfl, by simp, by simp⟩
    | linkRstRelease => exact ⟨_, rfl, by simp, rfl⟩
    | _ => exact hother nofun nofun
  · rcases s.grantOwed_cases with h | ⟨-, -, a, hm, -, h⟩
    · exact absurd (h ▸ State.grantOwed_noGrantOwed) hn
    · exact ⟨a, hm, h⟩
  · unfold step
    simp only [State.grantOwed_frame, hp, State.tick, State.grantOwed_grantOwed]

/-! ### The reset state -/

/-- Settles O4, block by block. -/
theorem resetMeetsTheInvariants : Obligations.ResetMeetsTheInvariants := by
  unfold Obligations.ResetMeetsTheInvariants
  have hidle : State.reset.IdleBlocks :=
    { State.idleBlocks_reset State.reset [] (some 0) false with }
  have hread : State.reset.readAgrees :=
    (State.readAgrees_iff_of_no_read (State.noLookupRead_of_none rfl)).2 (.inl rfl)
  have hchannels : ∀ c ∈ State.reset.channels.toList, c.wf := fun c hc => by
    rw [List.eq_of_mem_replicate (by simpa [State.reset] using hc : c ∈ List.replicate 16 _)]
    exact Context.reset_wf
  refine ⟨reset_memory_canonical, by decide, by decide, by decide, nofun, ⟨hchannels, nofun⟩,
    State.engineAgrees_of_empty rfl rfl hread, rfl, ErrorQueue.wf_empty 0,
    Sparing.cleared_wf State.reset.sparing, by decide,
    ⟨nofun, nofun⟩, State.fillsUnprotected_of_idle (State.reset_protects_nothing _ rfl rfl rfl), ?_,
    State.startUpQuiet_iff.2 ⟨fun _ => ⟨hidle, by decide⟩, nofun⟩, ⟨nofun, nofun⟩,
    State.engineInRange_of_not_evaluating rfl, ⟨nofun, nofun⟩, ?_, rfl⟩
  · exact State.maintSound_of_jobsOnly (State.AtRest.jobsOnly ⟨rfl, rfl, rfl, rfl, rfl⟩ rfl)
      (.off rfl rfl nofun)
  · intro k hk
    cases hk
    decide

end

end Sys2Proof.Machine

namespace Sys2Proof.Machine

/-! PROOFS. Time (1.5.3, 4.6, 9.3): one tick, the expiries, and the new settings of the two timers. -/

section
variable {s t v u : State} {o : Option Instr}

/-! ### Ticks of the stall timer (R61) -/

/-- A stall timer that has counted `n` more ticks has come to LINK_TIMEOUT. -/
def Link.reaches (l : Link) (n : Nat) (u : StallTimer) : Bool :=
  decide (l.timeout ≠ 0) && decide (l.timeout.toNat ≤ min 65535 (u.elapsed + n))

/-- The state after `n` ticks of the stall timer, which expires if it comes to LINK_TIMEOUT. -/
def State.stallTicked (s : State) (n : Nat) : State :=
  { s with
    link := { s.link with
      stall := s.link.stall.map (fun u =>
        { elapsed := min 65535 (u.elapsed + n), expired := u.expired || s.link.reaches n u }) }
    host := { s.host with flags := { s.host.flags with
      linkStall :=
        s.host.flags.linkStall || s.link.stall.any (fun u => !u.expired && s.link.reaches n u) } } }

theorem Link.stallDue_passTicks (l : Link) (n : Nat) :
    (l.passTicks n).stallDue = l.stall.any (fun u => !u.expired && l.reaches n u) := by
  cases hs : l.stall with
  | none => simp [Link.stallDue, Link.passTicks, hs]
  | some w =>
    by_cases ht : l.timeout = 0
    · simp [Link.stallDue, Link.passTicks, Link.reaches, hs, ht]
    · have hb : (l.timeout != 0#16) = true := by simpa using ht
      simp [Link.stallDue, Link.passTicks, Link.reaches, hs, hb, show ¬l.timeout = 0#16 from ht]

/-- Ticks and the check of the stall timer. -/
theorem State.passStall_eq (s : State) (n : Nat) :
    (s.setLink (s.link.passTicks n)).checkStall = s.stallTicked n := by
  have hdue := Link.stallDue_passTicks s.link n
  unfold State.checkStall State.stallTicked
  simp only [State.setLink_link, hdue]
  cases hs : s.link.stall with
  | none => simp [Link.passTicks, hs, State.setLink]
  | some w =>
    cases he : w.expired <;> cases hr : s.link.reaches n w <;>
      simp [State.expireStall, State.raiseLinkStall, State.setFlags, State.setLink, State.setHost,
        Link.passTicks, hs, he, hr]

/-! ### One tick (log entry 6) -/

theorem Patrol.passTicks_of_stopped {p : Patrol} (h : p.timer = none) (n : Nat) :
    p.passTicks n = p := by
  cases p; cases h; rfl

/-- A pacing timer that does not reach PATROL_INTERVAL only counts. -/
theorem Patrol.passTicks_of_running {p : Patrol} {k n : Nat} (h : p.timer = some k)
    (hn : k + n < p.interval.toNat) : p.passTicks n = { p with timer := some (k + n) } := by
  have : max k (min p.interval.toNat (k + n)) = k + n := by omega
  simp [Patrol.passTicks, h, this]

/-- The end of an event with the interval timer stopped. -/
theorem State.checkPatrol_of_stopped (h : s.patrol.timer = none) : s.checkPatrol = s.settle := by
  have : s.patrol.due = false := by simp [Patrol.due, h]
  simp [State.checkPatrol, this]

theorem State.checkPatrol_of_not_due (h : s.patrol.due = false) : s.checkPatrol = s.settle := by
  simp [State.checkPatrol, h]

theorem State.checkPatrol_of_due (h : s.patrol.due = true) :
    s.checkPatrol = ({ s with patrol := s.patrol.startStep } : State).settle := by
  simp [State.checkPatrol, h]
  rfl

theorem State.checkStall_setPatrol (p : Patrol) :
    (s.setPatrol p).checkStall = s.checkStall.setPatrol p := by
  unfold State.checkStall
  rw [State.setPatrol_link]
  by_cases h : s.link.stallDue = true
  · rw [if_pos h, if_pos h]
    rfl
  · rw [if_neg h, if_neg h]

/-- Ticks of both timers with the check of the stall timer. -/
theorem State.passTicks_checkStall (s : State) (n : Nat) :
    (s.passTicks n).checkStall = { s.stallTicked n with patrol := s.patrol.passTicks n } := by
  rw [State.passTicks, State.checkStall_setPatrol, State.passStall_eq]
  rfl

/-- `n` ticks of the part: the stall timer's, and the interval timer's with the step it may start. -/
def State.ticked (s : State) (n : Nat) : State :=
  ({ s.stallTicked n with patrol := s.patrol.passTicks n } : State).checkPatrol

theorem State.ticked_of_stopped (h : s.patrol.timer = none) (n : Nat) :
    s.ticked n = (s.stallTicked n).settle := by
  rw [State.ticked, Patrol.passTicks_of_stopped h]
  exact State.checkPatrol_of_stopped h

theorem State.ticked_of_short {k n : Nat} (hk : s.patrol.timer = some k)
    (hn : k + n < s.patrol.interval.toNat) :
    s.ticked n =
      ({ s.stallTicked n with patrol := { s.patrol with timer := some (k + n) } } : State).settle := by
  rw [State.ticked, Patrol.passTicks_of_running hk hn]
  apply State.checkPatrol_of_not_due
  cases s.patrol.phase <;> simp [Patrol.due, hn]

theorem State.ticked_of_due {k n : Nat} (hp : s.patrol.phase = .pacing)
    (hk : s.patrol.timer = some k) (hn : s.patrol.interval.toNat ≤ k + n) :
    s.ticked n = ({ s.stallTicked n with patrol := s.patrol.startStep } : State).settle := by
  rw [State.ticked, State.checkPatrol_of_due]
  · rfl
  · simp [Patrol.due, Patrol.passTicks, hp, hk, hn]

theorem State.tick_eq (h : s.noGrantOwed) : s.tick = s.ticked 1 := by
  rw [State.tick, State.grantOwed_of_noGrantOwed h, State.passTicks_checkStall]
  rfl

/-- Ticks do not touch what the arbiter chooses by. -/
theorem State.choose_stallTicked (n : Nat) : (s.stallTicked n).choose = s.choose :=
  State.choose_congr rfl rfl rfl rfl rfl rfl

/-- An owed grant made before a tick is the one that the end of the tick would make. -/
theorem State.tick_of_owed (h : ¬s.noGrantOwed) :
    s.patrol.phase = .claiming ∧ (s.patrol.timer = none → s.tick = (s.stallTicked 1).settle) := by
  rcases s.grantOwed_cases with hg | ⟨hd, ha, a, hm, hc, hg⟩
  · exact absurd (hg ▸ State.grantOwed_noGrantOwed) h
  · obtain ⟨-, hw⟩ := State.maintClaim_eq_some hm
    refine ⟨by cases hw; assumption, fun ht => ?_⟩
    have hgt : s.grantOwed.patrol.timer = none := by rw [hg]; exact ht
    have hbusy : (s.grantOwed.stallTicked 1).settle = s.grantOwed.stallTicked 1 :=
      State.settle_of_no_grant _ (.inr (.inl (by rw [hg]; exact Option.some_ne_none _)))
    have htick : s.tick = s.grantOwed.ticked 1 := by
      rw [← State.tick_eq State.grantOwed_noGrantOwed]
      simp only [State.tick, State.grantOwed_grantOwed]
    rw [htick, State.ticked_of_stopped hgt, hbusy, hg,
      State.settle_of_choose (s := s.stallTicked 1) hd ha (State.choose_stallTicked 1 ▸ hc),
      State.grant_patrolRead (s := s.stallTicked 1) hm]
    rfl

theorem step_of_empty (h : s.pending = []) : step s = .next s.tick := by
  unfold step
  rw [h]

/-- A tick of two stopped timers only ends an event. -/
theorem State.stallTicked_of_stopped (h : s.link.stall = none) (n : Nat) : s.stallTicked n = s := by
  simp [State.stallTicked, h]
  rw [← h]

/-- Settles O3, by the stall timer's ticks and the three cases of the interval timer; an owed grant is
made by the end of the tick alike. -/
theorem emptyQueueLetsOneTickPass : Obligations.EmptyQueueLetsOneTickPass := by
  intro s hp htimer
  have hstep := step_of_empty hp
  have hstopped : s.patrol.timer = none → step s = .next (s.stallTicked 1).settle := by
    intro ht
    by_cases ho : s.noGrantOwed
    · rw [hstep, State.tick_eq ho, State.ticked_of_stopped ht]
    · rw [hstep, (State.tick_of_owed ho).2 ht]
  have hrunning : ∀ n, s.patrol.timer = some n → s.patrol.phase = .pacing ∧ s.noGrantOwed := by
    intro n hn
    have hpac := htimer (by simp [hn])
    refine ⟨hpac, by_contra fun ho => ?_⟩
    rw [(State.tick_of_owed ho).1] at hpac
    cases hpac
  refine ⟨hstopped, fun n hn => ?_, fun hs ht hg => ?_⟩
  · obtain ⟨hpac, ho⟩ := hrunning n hn
    refine ⟨fun hlt => ?_, fun hle => ?_⟩
    · rw [hstep, State.tick_eq ho, State.ticked_of_short hn hlt]
      rfl
    · rw [hstep, State.tick_eq ho, State.ticked_of_due hpac hn hle]
      rfl
  · rw [hstopped ht, State.stallTicked_of_stopped hs, State.settle_of_no_grant _ hg]

/-! ### The expiries (R61, R144) -/

/-- The state after the stall timer of the head has expired at LINK_TIMEOUT. -/
def State.stallExpired (s : State) : State :=
  { s with
    link := { s.link with stall := some { elapsed := s.link.timeout.toNat, expired := true } }
    host := { s.host with flags := { s.host.flags with linkStall := true } } }

/-- The ticks left to an unexpired stall timer bring it to LINK_TIMEOUT. -/
theorem Link.reaches_left {l : Link} {n : Nat} (ht : l.timeout ≠ 0) (hn : n ≤ l.timeout.toNat) :
    min 65535 (n + (l.timeout.toNat - n)) = l.timeout.toNat ∧
      l.reaches (l.timeout.toNat - n) { elapsed := n, expired := false } = true := by
  have hmax : l.timeout.toNat ≤ 65535 := by have := l.timeout.isLt; omega
  have hsum : n + (l.timeout.toNat - n) = l.timeout.toNat := by omega
  refine ⟨by omega, ?_⟩
  simp [Link.reaches, hsum, hmax, show ¬l.timeout = 0#16 from ht]

theorem State.stallTicked_left {n : Nat}
    (hs : s.link.stall = some { elapsed := n, expired := false }) (ht : s.link.timeout ≠ 0)
    (hn : n ≤ s.link.timeout.toNat) :
    s.stallTicked (s.link.timeout.toNat - n) = s.stallExpired := by
  obtain ⟨hmin, hr⟩ := Link.reaches_left ht hn
  simp [State.stallTicked, State.stallExpired, hs, hmin, hr]

/-- The expiry of the stall timer, an owed grant made (R61). -/
theorem exec_stallTimerExpiry (ho : s.noGrantOwed) {n : Nat}
    (hs : s.link.stall = some { elapsed := n, expired := false }) (ht : s.link.timeout ≠ 0)
    (hn : n ≤ s.link.timeout.toNat) :
    exec .stallTimerExpiry s = .next (s.ticked (s.link.timeout.toNat - n)) := by
  have hleft : s.link.stallTicksLeft = some (s.link.timeout.toNat - n) := by
    simp [Link.stallTicksLeft, hs, show ¬s.link.timeout = 0#16 from ht]
  have hdue : (s.link.passTicks (s.link.timeout.toNat - n)).stallDue = true := by
    obtain ⟨-, hr⟩ := Link.reaches_left ht hn
    simp [Link.stallDue_passTicks, hs, hr]
  have hexec : exec .stallTimerExpiry s =
      .next (s.passTicks (s.link.timeout.toNat - n)).expireStall.checkPatrol := by
    show execStallTimerExpiry s = _
    simp only [execStallTimerExpiry, State.event_of_noGrantOwed ho, hleft]
  have hcheck : (s.passTicks (s.link.timeout.toNat - n)).expireStall =
      (s.passTicks (s.link.timeout.toNat - n)).checkStall := (if_pos hdue).symm
  rw [hexec, hcheck, State.passTicks_checkStall]
  rfl

/-- A stall timer that is stopped, off or expired has no ticks left (R61). -/
theorem Link.stallTicksLeft_eq_none {l : Link}
    (h : l.stall = none ∨ l.timeout = 0 ∨ l.stall.any (·.expired) = true) :
    l.stallTicksLeft = none := by
  unfold Link.stallTicksLeft
  split
  · next u hu =>
    rw [hu] at h
    have : (u.expired || l.timeout == 0) = true := by simpa [or_comm] using h
    rw [if_pos this]
  · rfl

/-! ### The new settings (R62, R145) -/

/-- A host access on a free bus, an owed grant made, has its own effect (R157). -/
theorem State.whenBusFree_of_takes (h : s.takesHostAccess) (f : State → State) :
    s.whenBusFree f = .next (f s) := by
  rw [State.whenBusFree_of_free h.1, State.grantOwed_of_noGrantOwed h.2]

theorem exec_patrolIntervalWrite (h : s.takesHostAccess) (d : Data) :
    exec (.patrolIntervalWrite d) s = .next (s.writePatrolInterval d) :=
  State.whenBusFree_of_takes h (·.writePatrolInterval d)

theorem exec_linkTimeoutWrite (h : s.takesHostAccess) (d : Data) :
    exec (.linkTimeoutWrite d) s = .next (s.writeLinkTimeout d) :=
  State.whenBusFree_of_takes h (·.writeLinkTimeout d)

theorem State.writeLinkTimeout_of_due {d : Data} {w : StallTimer} (hs : s.link.stall = some w)
    (he : w.expired = false) (hd : d ≠ 0) (hle : d.toNat ≤ w.elapsed) :
    s.writeLinkTimeout d = { s with
      link := { s.link with timeout := d, stall := some { w with expired := true } }
      host := { s.host with flags := { s.host.flags with linkStall := true } } } := by
  have hdue : (s.setLink { s.link with timeout := d }).link.stallDue = true := by
    simp [Link.stallDue, hs, he, hle, show ¬d = 0#16 from hd]
  rw [State.writeLinkTimeout, State.checkStall, if_pos hdue]
  simp [State.expireStall, State.raiseLinkStall, State.setFlags, State.setLink, State.setHost, hs]

theorem State.writeLinkTimeout_of_not_due {d : Data}
    (h : ∀ w, s.link.stall = some w → w.expired = true ∨ d = 0 ∨ w.elapsed < d.toNat) :
    s.writeLinkTimeout d = { s with link := { s.link with timeout := d } } := by
  have hdue : ¬(s.setLink { s.link with timeout := d }).link.stallDue = true := by
    cases hs : s.link.stall with
    | none => simp [Link.stallDue, hs]
    | some w =>
      rcases h w hs with he | hz | hlt
      · simp [Link.stallDue, hs, he]
      · simp [Link.stallDue, hs, hz]
      · simp [Link.stallDue, hs, hlt]
  rw [State.writeLinkTimeout, State.checkStall, if_neg hdue]
  rfl

/-- Settles O23, by the ticks that each expiry lets pass and by the check of each timer against its new
setting. -/
theorem timersExpireAtTheirSettings : Obligations.TimersExpireAtTheirSettings := by
  refine ⟨fun s ho => ⟨fun n hs ht hn => ?_, fun h => ?_⟩, fun s ho => ⟨fun n hp hn => ?_, fun hp => ?_⟩,
    fun s d h => ⟨fun n hp hn hle => ?_, fun hlt => ?_, fun w hw he hd hle => ?_, fun hnd => ?_⟩⟩
  · refine ⟨fun hstop => ?_, fun e hp he => ⟨fun hlt => ?_, fun hle => ?_⟩⟩
    · rw [exec_stallTimerExpiry ho hs ht hn, State.ticked_of_stopped hstop,
        State.stallTicked_left hs ht hn]
      rfl
    · rw [exec_stallTimerExpiry ho hs ht hn, State.ticked_of_short he hlt,
        State.stallTicked_left hs ht hn]
      rfl
    · rw [exec_stallTimerExpiry ho hs ht hn, State.ticked_of_due hp he hle,
        State.stallTicked_left hs ht hn]
      rfl
  · show execStallTimerExpiry s = _
    simp only [execStallTimerExpiry, State.event_of_noGrantOwed ho, Link.stallTicksLeft_eq_none h]
  · show execPatrolIntervalExpiry s = _
    simp only [execPatrolIntervalExpiry, State.event_of_noGrantOwed ho, hp, hn, State.passStall_eq]
    rfl
  · show execPatrolIntervalExpiry s = _
    simp only [execPatrolIntervalExpiry, State.event_of_noGrantOwed ho]
    split
    · next hpac _ => exact absurd hpac hp
    · rfl
  · rw [exec_patrolIntervalWrite h, State.writePatrolInterval, State.checkPatrol_of_due]
    · rfl
    · simp [Patrol.due, hp, hn, hle]
  · rw [exec_patrolIntervalWrite h, State.writePatrolInterval, State.checkPatrol_of_not_due]
    · rfl
    · unfold Patrol.due
      split
      · next k hp hk => exact decide_eq_false (Nat.not_le.2 (hlt hp k hk))
      · rfl
  · rw [exec_linkTimeoutWrite h, State.writeLinkTimeout_of_due hw he hd hle]
  · rw [exec_linkTimeoutWrite h, State.writeLinkTimeout_of_not_due hnd]

end

end Sys2Proof.Machine

namespace Sys2Proof.Machine

/-! PROOFS. Device reset and start-up (2.7). -/

section
variable {s t v u : State} {o : Option Instr}

/-! ### Device reset (R18) -/

theorem State.outputsAfterReset_eq : s.outputsAfterReset = { s.outputs with
    readData := if s.host.stretch = some .read then 0 else s.outputs.readData } := by
  unfold State.outputsAfterReset
  split
  · next h => rw [if_pos h]
  · next h => rw [if_neg h]

/-- Every block but the words, the fill and RESET#, at its reset value. -/
theorem State.deviceReset_grantOwed (mem : List (Nat × StoredWord)) (fill : Option Nat) (b : Bool) :
    s.grantOwed.deviceReset mem fill b = s.deviceReset mem fill b := by
  obtain ⟨-, hl, -, -, -, -, hh, ho, hf, hp, -⟩ := s.grantOwed_frame
  simp only [State.deviceReset, State.outputsAfterReset_eq, hl, hh, ho, hf, hp]

/-- The words after a reset by the pin: kept, but for the key abandoned. -/
theorem memRead_memAfterReset {k : Nat} (h : s.abandonedKey ≠ some k) :
    memRead s.memAfterReset k = memRead s.store.mem k := by
  unfold State.memAfterReset
  split
  · next n hn =>
    rw [hn] at h
    exact memRead_memWrite_ne _ _ fun e => h (e ▸ rfl)
  · rfl

theorem State.abandonedKey_grantOwed {k : Nat} (hf : s.store.fill ≠ some k)
    (ha : ∀ tag i, s.store.access ≠ some (.write tag (some k) i)) :
    s.grantOwed.abandonedKey ≠ some k := by
  have hkey : s.abandonedKey ≠ some k := by
    unfold State.abandonedKey
    split
    · next n hn => rwa [← hn]
    · next hacc => exact fun e => ha _ _ (e ▸ hacc)
    · exact nofun
  rcases s.grantOwed_cases with h | ⟨-, -, a, -, -, h⟩
  · rwa [h]
  · rw [h]
    unfold State.abandonedKey
    split
    · next n hn => rwa [← hn]
    · next hacc => cases hacc
    · exact nofun

/-- A device reset makes the reset state, with words and a fill by its cause. -/
theorem exec_deviceReset (cause : ResetCause) : ∃ mem fill b,
    exec (.deviceReset cause) s = .next (s.deviceReset mem fill b) ∧
    (cause = .pinAsserted → fill = none ∧ b = true ∧ mem = s.grantOwed.memAfterReset) ∧
    (cause = .powerOn → fill = some 0 ∧ b = false) := by
  cases cause with
  | pinAsserted =>
    refine ⟨s.grantOwed.memAfterReset, none, true, ?_, fun _ => ⟨rfl, rfl, rfl⟩, nofun⟩
    exact congrArg _ (State.deviceReset_grantOwed _ _ _)
  | powerOn =>
    refine ⟨State.reset.store.mem, some 0, false, ?_, nofun, fun _ => ⟨rfl, rfl⟩⟩
    exact congrArg _ (State.deviceReset_grantOwed _ _ _)

/-- Settles O5, by the reset state and by the one word whose write the reset abandons. -/
theorem deviceResetSetsEveryBlock : Obligations.DeviceResetSetsEveryBlock := by
  intro cause s
  obtain ⟨mem, fill, b, hexec, hpin, hpower⟩ := exec_deviceReset (s := s) cause
  refine ⟨_, hexec, ⟨rfl, rfl, rfl, rfl, rfl⟩, fun h => ?_, hpower, fun ch => ?_, rfl, rfl, rfl,
    ⟨fun k => ?_, fun k => ?_, rfl⟩, rfl, rfl, rfl, State.outputsAfterReset_eq,
    fun _ hc p hf ha => ?_⟩
  · obtain ⟨hfill, hb, -⟩ := hpin h
    exact ⟨hfill, hb⟩
  · exact Vector.getElem_replicate ch.isLt
  · exact Vector.getElem_replicate k.isLt
  · exact Vector.getElem_replicate k.isLt
  · obtain ⟨-, -, hmem⟩ := hpin hc
    obtain ⟨-, -, -, -, -, -, -, -, -, -, -, hm, -⟩ := s.grantOwed_frame
    calc memRead mem p.key
      _ = memRead s.grantOwed.store.mem p.key := by
        rw [hmem, memRead_memAfterReset (State.abandonedKey_grantOwed hf ha)]
      _ = memRead s.store.mem p.key := by rw [hm]

/-! ### The release of RESET# and the fill (R19) -/

/-- The store while the fill goes on behind key `k`. -/
def State.filledNext (s : State) (k : Nat) : State :=
  { s with store := { s.store with mem := memWrite s.store.mem k StoredWord.zero, fill := some (k + 1) } }

theorem exec_fillWrite {k : Nat} (hd : s.store.device = .startUp) (hf : s.store.fill = some k) :
    exec .startUpFillWriteCompletion s = .next
      (if k + 1 < wordCount then s.filledNext k else (s.putWord k StoredWord.zero).enterRunning) := by
  have ho : s.noGrantOwed := fun hr => by rw [hd] at hr; cases hr
  show execStartUpFillWriteCompletion s = _
  simp only [execStartUpFillWriteCompletion, State.event_of_noGrantOwed ho, hf]
  rfl

/-- Where an idle patrol goes with no job waiting (R144, R154). -/
theorem Patrol.resume_idle (p : Patrol) : p.resume false =
    if p.enable = false then { p with phase := .off, timer := none }
    else if p.interval ≠ 0 then { p with phase := .pacing, timer := some 0 }
    else p.startStep := by
  unfold Patrol.resume
  cases p.enable
  · simp
  · by_cases hi : p.interval = 0 <;> simp [hi]

/-- DEVICE_STATUS with the queues empty and every slot FREE (R179). -/
theorem State.deviceStatus_idle (hb : s.maint.busy = false) (hd : s.store.device = .running)
    (hq : s.link.queue = []) (he : s.errors.records = [])
    (hf : ∀ n : SlotNo, s.sparing.slots[n].state = .free) :
    s.deviceStatus = (s.patrol.phase.code <<< 12) ||| 0x0990 := by
  have hcount : s.sparing.freeCount = 16 := by
    rw [Sparing.freeCount_eq, List.filter_eq_self.2 fun n _ => by simpa using hf n]
    rfl
  have hlev : s.levels = 2448 := by simp [State.levels, hcount, hq, he]
  rw [State.deviceStatus, hb, State.modeField_of_running hd, hlev]
  simp [bitWord]

/-- The last fill write ends START_UP with the patrol resumed (R19, R154). -/
theorem State.enterRunning_eq (h : s.maint.busy = false) : s.enterRunning = { s with
    store := { s.store with device := .running, fill := none }
    host := { s.host with outcome := .none, flags := { s.host.flags with startDone := true } }
    patrol := s.patrol.resume false } := by
  rw [← h]
  rfl

/-- MODE beside LEVELS 2448, for the patrol states at the end of the fill (R179). -/
theorem deviceStatus_words :
    (PatrolPhase.off.code <<< 12) ||| 0x0990 = 0x0990 ∧
    (PatrolPhase.pacing.code <<< 12) ||| 0x0990 = 0x1990 ∧
    (PatrolPhase.claiming.code <<< 12) ||| 0x0990 = 0x3990 := by
  decide

/-- DEVICE_STATUS when the fill has ended (R179). -/
theorem State.deviceStatus_enterRunning (hr : s.maint.busy = false) (hq : s.link.queue = [])
    (he : s.errors.records = []) (hf : ∀ n : SlotNo, s.sparing.slots[n].state = .free) :
    s.enterRunning.deviceStatus =
      if s.patrol.enable = false then 0x0990
      else if s.patrol.interval ≠ 0 then 0x1990 else 0x3990 := by
  have hpat : s.enterRunning.patrol = s.patrol.resume false := by rw [State.enterRunning_eq hr]
  rw [State.deviceStatus_idle (s := s.enterRunning) hr rfl hq he hf, hpat, Patrol.resume_idle]
  obtain ⟨hoff, hpacing, hclaiming⟩ := deviceStatus_words
  split
  · exact hoff
  · split
    · exact hpacing
    · exact hclaiming

theorem exec_resetRelease (ho : s.noGrantOwed) : exec .resetRelease s = .next
    (if s.store.resetAsserted then
      (s.setStore { s.store with resetAsserted := false, fill := some 0 }).setSparing s.sparing.cleared
    else s) := by
  show execResetRelease s = _
  rw [execResetRelease, State.event_of_noGrantOwed ho]

/-- Settles O6, by the release and by the fill write, at the last word and before it. -/
theorem startUpFillClearsTheStore : Obligations.StartUpFillClearsTheStore := by
  refine ⟨fun s ho => ⟨fun h => ?_, fun h => ?_⟩, fun s k hd hf hk hm hq => ?_⟩
  · rw [exec_resetRelease ho, if_pos h]
    rfl
  · rw [exec_resetRelease ho, if_neg (by simp [h])]
  have hself : memRead (memWrite s.store.mem k StoredWord.zero) k = StoredWord.zero :=
    memRead_memWrite_self hm k _
  have hother : ∀ j, j ≠ k → memRead (memWrite s.store.mem k StoredWord.zero) j =
      memRead s.store.mem j := fun j hj => memRead_memWrite_ne _ _ hj
  rw [exec_fillWrite hd hf]
  by_cases hlast : k + 1 < wordCount
  · rw [if_pos hlast]
    exact ⟨_, rfl, hself, hother, fun _ => rfl, fun e => absurd hlast (by rw [e]; decide)⟩
  · rw [if_neg hlast]
    obtain ⟨hacc, hqueue, -, herr, -, hjobs, hrun, -⟩ := hq.1 hd
    have hb : (s.putWord k StoredWord.zero).maint.busy = false := by
      simp [Maint.busy, hjobs, hrun]
    refine ⟨_, rfl, hself, hother, fun h => absurd (Nat.succ_lt_succ h) hlast, fun _ => ⟨?_, hacc, ?_⟩⟩
    · rw [State.enterRunning_eq hb, Patrol.resume_idle]
      rfl
    · exact State.deviceStatus_enterRunning hb hqueue herr

end

end Sys2Proof.Machine

namespace Sys2Proof.Machine

/-! PROOFS. The store arbiter (2.5, 2.6): the choice of Table 2-7, and what each grant does. -/

section
variable {s t v u : State} {o : Option Instr}

/-! ### What a granted claim does (R2, R3, R8, R9) -/

/-- A word of a state whose memory is one write away. -/
theorem State.word_of_mem (hm : memCanonical s.store.mem) {p : Place} {w : StoredWord}
    (h : t.store.mem = memWrite s.store.mem p.key w) (q : Place) :
    t.word q = if q = p then w else s.word q := by
  rw [← State.word_putWord hm p q w]
  exact congrArg (memRead · q.key) h

/-- The host's claim that is chosen is the prefetch, with no posted write outstanding, and otherwise
the posted write (R163). -/
theorem State.hostClaim_of_choose (h : s.choose = some .host) :
    (s.host.posted = none → s.hostClaim = some .prefetch) ∧
      (∀ p, s.host.posted = some p → s.hostClaim = some .postedWrite) := by
  obtain ⟨k, hk⟩ := Option.isSome_iff_exists.1 (s.claim_of_choose h)
  obtain ⟨-, ⟨rfl, hp⟩ | ⟨rfl, hp, -⟩⟩ := State.hostClaim_cases hk
  · exact ⟨fun hn => by simp [hn] at hp, fun _ _ => hk⟩
  · exact ⟨fun _ => hk, fun p hs => by simp [hs] at hp⟩

/-- Settles O12, claim by claim. -/
theorem grantedAccessesDoWhatTheirClaimsAsk : Obligations.GrantedAccessesDoWhatTheirClaimsAsk := by
  refine ⟨fun s a hd ha => ⟨fun hc hl => ?_, fun hc hp => ?_, fun hc => ⟨fun hm => ?_, fun hm => ?_,
    fun hm => ?_⟩⟩, fun s a d k hd ha hmem hc => ⟨fun tag hm => ?_, fun hm => ?_⟩⟩
  · rw [State.settle_of_choose hd ha hc, State.grant_lookup hl]
  · rw [State.settle_of_choose hd ha hc, State.grant_prefetch ((State.hostClaim_of_choose hc).1 hp)]
  · rw [State.settle_of_choose hd ha hc, State.grant_maintRead hm]
  · rw [State.settle_of_choose hd ha hc, State.grant_retireRead hm]
  · rw [State.settle_of_choose hd ha hc, State.grant_patrolRead hm]
  · rw [State.settle_of_choose hd ha hc, State.grant_maintWrite hm]
    exact ⟨State.word_of_mem hmem rfl, rfl⟩
  · rw [State.settle_of_choose hd ha hc, State.grant_spareWrite hm]
    exact ⟨State.word_of_mem hmem rfl, rfl⟩

/-! ### The posted write (R164, R165, R17) -/

theorem State.refusedWrite_eq (a : Addr) : s.refusedWrite a = { s with
    store := { s.store with
      access := some (.write .posted none .wanted)
      hostWait := 0, maintWait := s.maintWaitAfterHost }
    host := { s.host with
      refusedCount := if s.host.refusedCount = 255 then 255 else s.host.refusedCount + 1
      refusedAddress := if s.host.refusedCount = 0 then a else s.host.refusedAddress
      flags := { s.host.flags with writeRefused := true } } } := by
  rw [← satInc_byte]
  rfl

/-- The retire operations after a report of `p`, as R115 words it. -/
theorem RetireOp.report_eq (a : Addr) (d : Data) : (fun r : RetireOp => r.report a d) =
    fun r => match r.phase with
      | .read => r
      | .write c =>
        if r.address = a then { r with phase := .write { c with copy := d, poison := false } }
        else r := by
  funext r
  rcases r with ⟨b, src, ph⟩
  cases ph <;> rfl

/-- The state after a posted write has been taken, with a change made to a retire operation. -/
def State.writeTaken (s : State) (p : Posted) (report : RetireOp → RetireOp) : State :=
  { s.takenWrite p with sparing := { (s.takenWrite p).sparing with
      retire := s.sparing.retire.map report } }

theorem State.settle_posted {p : Posted} (hd : s.store.device = .running) (ha : s.store.access = none)
    (hp : s.host.posted = some p) (hc : s.choose = some .host) :
    s.settle = if s.isProtected p.address.toNat = true then s.refusedWrite p.address
      else if s.store.mark = some p.address then
        (s.writeTaken p (·.report p.address p.data)).cancelStep p.address
      else s.takenWrite p := by
  rw [State.settle_of_choose hd ha hc, State.grant_posted ((State.hostClaim_of_choose hc).2 p hp) hp]
  rfl

theorem State.cancelStep_of_other {a : Addr} (h : ∀ st, s.patrol.step = some st → st.address ≠ a) :
    s.cancelStep a = s := by
  unfold State.cancelStep
  split
  · next st hst => rw [if_neg (h st hst)]
  · rfl

theorem State.cancelStep_of_marked {a : Addr} {st : PatrolStep} (hst : s.patrol.step = some st)
    (ha : st.address = a) (hr : st.retiring = true ∨ s.patrol.phase ≠ .repairing) :
    s.cancelStep a = { s with patrol := { s.patrol with step := some { st with cancel := true } } } := by
  have hne : ¬(s.patrol.phase = .repairing ∧ st.retiring = false) := by
    rintro ⟨hph, hret⟩
    rcases hr with hr | hr
    · simp [hret] at hr
    · exact hr hph
  simp only [State.cancelStep, hst, if_pos ha, if_neg hne]
  rfl

theorem State.cancelStep_of_waiting {a : Addr} {st : PatrolStep} (hst : s.patrol.step = some st)
    (ha : st.address = a) (hret : st.retiring = false) (hph : s.patrol.phase = .repairing) :
    s.cancelStep a = ({ s with store := { s.store with maintWait := 0 } } : State).endStep := by
  simp only [State.cancelStep, hst, if_pos ha, if_pos (And.intro hph hret)]
  rfl

/-- Settles O13, by the protected set and the mark, and for the report by the cases of the step. -/
theorem postedWriteIsTakenRefusedOrReported : Obligations.PostedWriteIsTakenRefusedOrReported := by
  refine ⟨fun s p hd ha hm hp hc => ⟨fun hx => ?_, fun hx hk => ?_⟩, fun s p hd ha hm hp hc hx hk => ?_⟩
  · rw [State.settle_posted hd ha hp hc, if_pos hx, State.refusedWrite_eq]
  · rw [State.settle_posted hd ha hp hc, if_neg (by simp [hx]), if_neg hk]
    exact ⟨State.word_of_mem hm rfl, rfl⟩
  · have hs : s.settle = (s.writeTaken p (·.report p.address p.data)).cancelStep p.address := by
      rw [State.settle_posted hd ha hp hc, if_neg (by simp [hx]), if_pos hk]
    have hmem : s.settle.store.mem = (s.writeTaken p (·.report p.address p.data)).store.mem := by
      rw [hs]; simp
    refine ⟨State.word_of_mem hm hmem, ?_⟩
    rw [hmem]
    intro taken
    have htaken : taken = s.writeTaken p (·.report p.address p.data) :=
      (congrArg (s.writeTaken p) (RetireOp.report_eq p.address p.data)).symm
    clear_value taken
    rw [hs, ← htaken]
    have hpat : taken.patrol = s.patrol := by rw [htaken]; rfl
    refine ⟨fun hno => ?_, fun st hst had => ⟨fun hr => ?_, fun hret hph => ?_⟩⟩
    · exact State.cancelStep_of_other (hpat ▸ hno)
    · rw [State.cancelStep_of_marked (hpat ▸ hst) had (hpat ▸ hr), hpat]
    · exact State.cancelStep_of_waiting (hpat ▸ hst) had hret (hpat ▸ hph)

/-! ### The choice (Table 2-7) -/

/-- A claim that the next waiting command withdraws (R87, R137). -/
theorem State.withdrawalWaits_iff (c : Claimant) :
    s.withdrawalWaits c = true ↔ ∃ i rest, s.pending = i :: rest ∧
      (c = .lookup ∧ (i = .linkRstAssert ∨ s.host.stretch = none ∧ ∃ low, i = .softReset low) ∨
        c = .maint ∧ s.host.stretch = none ∧ ∃ low, i = .abortJobs low) := by
  unfold State.withdrawalWaits
  split
  · next rest hp => simp [hp]
  · next low rest hp => simp [hp]
  · next low rest hp => simp [hp]
  · next hlink hsoft habort =>
    refine ⟨nofun, ?_⟩
    rintro ⟨i, rest, hp, ⟨rfl, rfl | ⟨-, low, rfl⟩⟩ | ⟨rfl, -, low, rfl⟩⟩
    · exact absurd rfl (hlink rest hp)
    · exact absurd rfl (hsoft low rest hp)
    · exact absurd rfl (habort low rest hp)

/-- The host table port is due or alone: it is chosen (R12, rows 1 and 4). -/
theorem State.choose_host
    (h : (s.hostClaim.isSome = true ∧ s.store.hostWait = 4) ∨ (s.hostClaim.isSome = true ∧
      ¬(s.maintClaim.isSome = true ∧ s.patrol.share.toNat ≤ s.store.maintWait) ∧
      ¬s.lookupClaim.isSome = true)) : s.choose = some .host := by
  unfold State.choose State.hostDue State.maintDue
  rcases h with ⟨h, hw⟩ | ⟨h, hm, hl⟩
  · simp [h, hw]
  · have hm' : (s.maintClaim.isSome && decide (s.patrol.share.toNat ≤ s.store.maintWait)) = false := by
      simpa using hm
    simp [h, hm', hl]

/-- The maintenance engine is due or alone: it is chosen (R13, rows 2 and 5). -/
theorem State.choose_maint
    (h : (s.maintClaim.isSome = true ∧ s.patrol.share.toNat ≤ s.store.maintWait) ∧
        ¬(s.hostClaim.isSome = true ∧ s.store.hostWait = 4) ∨
      s.maintClaim.isSome = true ∧ ¬s.hostClaim.isSome = true ∧ ¬s.lookupClaim.isSome = true) :
    s.choose = some .maint := by
  unfold State.choose State.hostDue State.maintDue
  rcases h with ⟨⟨hm, hw⟩, hh⟩ | ⟨hm, hh, hl⟩
  · have hh' : (s.hostClaim.isSome && s.store.hostWait == 4) = false := by
      simpa using hh
    simp [hm, hw, hh']
  · simp [hm, hh, hl]

/-- With no other claimant due the lookup engine is chosen (R11, row 3). -/
theorem State.choose_lookup (h : s.lookupClaim.isSome = true)
    (hh : ¬(s.hostClaim.isSome = true ∧ s.store.hostWait = 4))
    (hm : ¬(s.maintClaim.isSome = true ∧ s.patrol.share.toNat ≤ s.store.maintWait)) :
    s.choose = some .lookup := by
  have hh' : (s.hostClaim.isSome && s.store.hostWait == 4) = false := by
    simpa using hh
  have hm' : (s.maintClaim.isSome && decide (s.patrol.share.toNat ≤ s.store.maintWait)) = false := by
    simpa using hm
  simp [State.choose, State.hostDue, State.maintDue, h, hh', hm']

/-! ### The access and the counts after a grant (R11 to R13) -/

/-- The claimant has the access in progress, which its operation awaits. -/
def State.Granted (s : State) (c : Claimant) : Prop :=
  ∃ a, s.store.access = some a ∧ a.claimant = c ∧ a.interest = .wanted

theorem State.grant_host_counts (h : s.choose = some .host) :
    (s.grant .host).Granted .host ∧ (s.grant .host).store.hostWait = 0 ∧
      ((∀ p, s.host.posted = some p → s.store.mark ≠ some p.address) →
        (s.grant .host).store.maintWait = s.maintWaitAfterHost) := by
  obtain ⟨hpre, hpost⟩ := State.hostClaim_of_choose h
  cases hp : s.host.posted with
  | none =>
    rw [State.grant_prefetch (hpre hp)]
    exact ⟨⟨_, rfl, rfl, rfl⟩, rfl, fun _ => rfl⟩
  | some p =>
    rw [State.grant_posted (hpost p hp) hp]
    split
    · exact ⟨⟨_, rfl, rfl, rfl⟩, rfl, fun _ => rfl⟩
    · split
      · next hm =>
        obtain ⟨-, -, -, -, -, -, -, -, ha, -, -, -, hw, -⟩ :=
          (s.takenWrite p).reportHostWrite_frame p.address p.data
        exact ⟨⟨_, ha, rfl, rfl⟩, hw, fun hn => absurd hm (hn p rfl)⟩
      · exact ⟨⟨_, rfl, rfl, rfl⟩, rfl, fun _ => rfl⟩

theorem State.grant_maint_counts (h : s.choose = some .maint) :
    (s.grant .maint).Granted .maint ∧ (s.grant .maint).store.maintWait = 0 ∧
      (s.grant .maint).store.hostWait = s.store.hostWait := by
  obtain ⟨m, hm⟩ := Option.isSome_iff_exists.1 (s.claim_of_choose h)
  obtain ⟨-, hw⟩ := State.maintClaim_eq_some hm
  cases hw with
  | retireRead op => rw [State.grant_retireRead hm]; exact ⟨⟨_, rfl, rfl, rfl⟩, rfl, rfl⟩
  | spareWrite op c => rw [State.grant_spareWrite hm]; exact ⟨⟨_, rfl, rfl, rfl⟩, rfl, rfl⟩
  | fillWord j => rw [State.grant_maintWrite hm]; exact ⟨⟨_, rfl, rfl, rfl⟩, rfl, rfl⟩
  | verifyRead j => rw [State.grant_maintRead hm]; exact ⟨⟨_, rfl, rfl, rfl⟩, rfl, rfl⟩
  | patrolRead st => rw [State.grant_patrolRead hm]; exact ⟨⟨_, rfl, rfl, rfl⟩, rfl, rfl⟩
  | writeBack st => rw [State.grant_maintWrite hm]; exact ⟨⟨_, rfl, rfl, rfl⟩, rfl, rfl⟩

theorem State.grant_lookup_counts (h : s.choose = some .lookup) :
    (s.grant .lookup).Granted .lookup ∧
      ((s.grant .lookup).store.hostWait, (s.grant .lookup).store.maintWait) =
        s.waitsAfterLookup := by
  obtain ⟨a, ha⟩ := Option.isSome_iff_exists.1 (s.claim_of_choose h)
  rw [State.grant_lookup ha]
  exact ⟨⟨_, rfl, rfl, rfl⟩, rfl⟩

/-- Settles O11, by the rows of Table 2-7 and the grant of each claimant. -/
theorem grantFollowsTheOrder : Obligations.GrantFollowsTheOrder := by
  intro s h m l hd md granted
  refine ⟨fun c => ⟨State.withdrawalWaits_iff c, fun hc => if_pos hc, fun hc => if_neg hc⟩,
    fun hb => s.settle_of_no_grant (hb.imp_right .inl),
    fun hr ha => ⟨fun nh nm nl => ?_, fun hx => ?_, fun hx => ?_, fun hx => ?_⟩⟩
  · have hnone : s.NoClaim := ⟨by simpa [h] using nh, by simpa [m] using nm, by simpa [l] using nl⟩
    exact s.settle_of_no_grant (.inr (.inr (State.choose_eq_none_iff.2 hnone)))
  · have hc := State.choose_host hx
    have hgrant := State.grant_host_counts hc
    rw [← State.settle_of_choose hr ha hc] at hgrant
    exact hgrant
  · have hc := State.choose_maint hx
    have hgrant := State.grant_maint_counts hc
    rw [← State.settle_of_choose hr ha hc] at hgrant
    exact hgrant
  · obtain ⟨hl, nhd, nmd⟩ := hx
    have hc := State.choose_lookup hl nhd nmd
    have hgrant := State.grant_lookup_counts hc
    rw [← State.settle_of_choose hr ha hc] at hgrant
    exact hgrant

end

end Sys2Proof.Machine

namespace Sys2Proof.Machine

/-! PROOFS. The sample link (4.1 to 4.4, 4.7): acceptance, the response word, delivery and link reset. -/

section
variable {s t v u : State} {o : Option Instr}

/-! ### Acceptance (4.4) -/

theorem State.linkOpen_iff : s.linkOpen = true ↔ s.store.device = .running ∧ s.link.enable = true ∧
    s.link.linkRst = false ∧ s.link.queue.length < 8 := by
  simp [State.linkOpen, and_assoc]

theorem exec_requestAcceptance (ho : s.noGrantOwed) (w : BitVec 29) :
    exec (.requestAcceptance w) s =
      .next (if s.linkOpen = true then (s.acceptWord w).settle else s) := by
  show execRequestAcceptance w s = _
  rw [execRequestAcceptance, State.event_of_noGrantOwed ho]

theorem exec_requestAcceptance_of_open (ho : s.noGrantOwed) (h : s.linkOpen = true) (w : BitVec 29) :
    exec (.requestAcceptance w) s = .next (s.acceptWord w).settle := by
  rw [exec_requestAcceptance ho, if_pos h]

theorem requestChannel_eq {w : BitVec 29} {ch : Chan} (h : (w.extractLsb' 22 4).toNat = ch.val) :
    requestChannel w = ch :=
  Fin.ext h

theorem State.acceptWord_of_odd {w : BitVec 29} (h : onesCount w % 2 = 1) :
    s.acceptWord w = s.raiseLinkError.pushSlot w (acceptanceResponse .linkParity 0) := by
  simp [State.acceptWord, requestParity, h]

/-- A word with good parity, by its KIND (Table 4-5). -/
theorem State.acceptWord_of_even {w : BitVec 29} (h : onesCount w % 2 = 0) :
    s.acceptWord w =
      if w.extractLsb' 26 2 = 0 then s.acceptLookup w
      else if w.extractLsb' 26 2 = 1 then s.acceptFrame w
      else s.pushSlot w (acceptanceResponse .badKind 0) := by
  rw [State.acceptWord, if_neg (by simp [requestParity, h])]
  rfl

section
variable {w : BitVec 29} {ch : Chan} (h : onesCount w % 2 = 0) (hk : w.extractLsb' 26 2 = 0)
  (hc : (w.extractLsb' 22 4).toNat = ch.val)
include h hk hc

theorem State.acceptWord_of_disabled (hs : s.channels[ch].state = .disabled) :
    s.acceptWord w = s.pushSlot w (acceptanceResponse .channelOff 0) := by
  rw [State.acceptWord_of_even h, if_pos hk]
  simp only [State.acceptLookup, requestChannel_eq hc, hs]

theorem State.acceptWord_of_suspended (hs : s.channels[ch].state = .suspended) :
    s.acceptWord w = s.pushSlot w (acceptanceResponse .suspended s.channels[ch].fallback) := by
  rw [State.acceptWord_of_even h, if_pos hk]
  simp only [State.acceptLookup, requestChannel_eq hc, hs]

theorem State.acceptWord_of_active (hs : s.channels[ch].state = .active) :
    s.acceptWord w =
      (s.pushSlot w (.waiting (requestSample w) s.channels[ch].snapshot)).takeSlot := by
  rw [State.acceptWord_of_even h, if_pos hk]
  simp only [State.acceptLookup, requestChannel_eq hc, hs]

end

theorem Context.fallback_eq (c : Context) : c.fallback =
    match c.policy with
    | .holdLast => c.lastGood
    | .substitute => c.substitute
    | .reject => 0 := by
  unfold Context.fallback
  cases c.policy <;> rfl

/-- Settles O17, by the order of Table 4-5 and the channel's STATE. -/
theorem wordsAnsweredAtAcceptanceChangeNothingElse :
    Obligations.WordsAnsweredAtAcceptanceChangeNothingElse := by
  refine ⟨fun s w => ⟨State.linkOpen_iff, fun h ho => ?_⟩, fun s w h hf ho => ⟨fun hp => ?_,
    fun hp hk => ?_⟩, fun s w ch h hf ho hp hk hc => ⟨fun hs => ?_, fun hs => ?_⟩⟩
  · rw [exec_requestAcceptance ho, if_neg (by simp [h])]
  · rw [exec_requestAcceptance_of_open ho h, State.acceptWord_of_odd hp,
      State.pushSlot_eq (s := s.raiseLinkError) hf]
    rfl
  · have h0 : w.extractLsb' 26 2 ≠ 0 := fun e => by simp [e] at hk
    have h1 : w.extractLsb' 26 2 ≠ 1 := fun e => by simp [e] at hk
    rw [exec_requestAcceptance_of_open ho h, State.acceptWord_of_even hp, if_neg h0, if_neg h1,
      State.pushSlot_eq s hf]
    rfl
  · rw [exec_requestAcceptance_of_open ho h, State.acceptWord_of_disabled hp hk hc hs,
      State.pushSlot_eq s hf]
    rfl
  · rw [exec_requestAcceptance_of_open ho h, State.acceptWord_of_suspended hp hk hc hs,
      State.pushSlot_eq s hf, Context.fallback_eq]
    rfl

/-! ### Frame marks (R37, R56) -/

theorem Context.commit_eq (c : Context) (n : BitVec 16) : c.commit n =
    if c.armed = true then
      { c with
        activeBank := match c.activeBank with
          | .a => .b
          | .b => .a
        armed := false, swapFrame := n }
    else c := by
  unfold Context.commit
  cases c.activeBank <;> rfl

/-- SWAP_DONE follows whether a channel was armed. -/
theorem State.swapCommit_flag (n : BitVec 16) :
    ((∃ ch : Chan, s.channels[ch].armed = true) →
      (s.swapCommit n).host = { s.host with flags := { s.host.flags with swapDone := true } }) ∧
    ((∀ ch : Chan, s.channels[ch].armed = false) → (s.swapCommit n).host = s.host) := by
  have hany : s.channels.toList.any (·.armed) = true ↔ ∃ ch : Chan, s.channels[ch].armed = true := by
    rw [List.any_eq_true, State.exists_channel]
  unfold State.swapCommit
  refine ⟨fun h => ?_, fun h => ?_⟩
  · rw [if_pos (hany.2 h)]
    rfl
  · rw [if_neg fun he => ?_]
    · rfl
    · obtain ⟨ch, hch⟩ := hany.1 he
      rw [h ch] at hch
      cases hch

/-- A state that a swap commit changes, by the two fields that it may change. -/
theorem State.swapCommit_eq (n : BitVec 16) : s.swapCommit n =
    { s with channels := (s.swapCommit n).channels, host := (s.swapCommit n).host } := by
  unfold State.swapCommit
  dsimp only
  split <;> rfl

/-- Settles O18, by the swap commit and the slot that joins the queue. -/
theorem frameMarkCommitsEveryArmedChannel : Obligations.FrameMarkCommitsEveryArmedChannel := by
  intro s w h hf ho hp hk
  have hframe : s.acceptWord w = s.acceptFrame w := by
    rw [State.acceptWord_of_even hp, if_neg (by rw [hk]; decide), if_pos hk]
  let s' : State := s.setLink { s.link with frame := s.link.frame + 1 }
  have hlink : (s'.swapCommit (s.link.frame + 1)).link = s'.link := by simp
  have hch : (s'.swapCommit (s.link.frame + 1)).channels =
      s.channels.map (·.commit (s.link.frame + 1)) := by simp [s']
  have hfollow : (s'.swapCommit (s.link.frame + 1)).stallFollowsOffer :=
    State.stallFollowsOffer_of_eq (s := s') hf (congrArg (·.stall.isSome) hlink)
      (congrArg Link.queue hlink)
  obtain ⟨hset, hkept⟩ := State.swapCommit_flag (s := s') (s.link.frame + 1)
  refine ⟨s.acceptFrame w, by rw [exec_requestAcceptance_of_open ho h, hframe], ?_⟩
  rw [State.acceptFrame, State.pushSlot_eq _ hfollow]
  refine ⟨fun ch => ?_, hset, hkept, ?_⟩
  · have hcommit : (s'.swapCommit (s.link.frame + 1)).channels[ch] =
        s.channels[ch].commit (s.link.frame + 1) := by
      rw [hch]
      exact Vector.getElem_map _ ch.isLt
    exact hcommit.trans (Context.commit_eq _ _)
  · rw [hlink]
    conv_lhs => rw [State.swapCommit_eq]
    rfl

/-! ### Lookups (R58) -/

theorem Context.active_eq (c : Context) : c.active = match c.activeBank with
    | .a => c.bankA
    | .b => c.bankB := by
  unfold Context.active
  cases c.activeBank <;> rfl

/-- The active bank of a live channel is protected (R44). -/
theorem State.isProtected_of_active {ch : Chan} {a : Nat} (h : s.channels[ch].state ≠ .disabled)
    (ha : s.channels[ch].active.range.has a = true) : s.isProtected a = true :=
  State.isProtected_iff.2 ⟨_, State.mem_protectedRanges.2 (.inl ⟨_, State.channel_mem ch,
    Context.mem_protectedRanges.2 (.inl ⟨h, rfl⟩)⟩), ha⟩

/-- Settles O19: the slot joins the queue and may be taken; the bank bound is the active bank of a
channel that stays ACTIVE. -/
theorem lookupOnAnActiveChannelBindsItsBank : Obligations.LookupOnAnActiveChannelBindsItsBank := by
  intro s w ch h hf ho hp hk hc hs c b
  have hb : b = c.active := (Context.active_eq c).symm
  have hexec : exec (.requestAcceptance w) s = .next
      (s.pushSlot w (.waiting (requestSample w) c.snapshot)).takeSlot.settle := by
    rw [exec_requestAcceptance_of_open ho h, State.acceptWord_of_active hp hk hc hs]
  rw [hexec]
  refine ⟨?_, fun t ht => ?_⟩
  · rw [State.pushSlot_eq s hf, hb]
    rfl
  · cases ht
    have hch : (s.pushSlot w (.waiting (requestSample w) c.snapshot)).takeSlot.settle.channels =
        s.channels := by simp
    refine ⟨hch, fun a hlo hhi => State.isProtected_of_active (ch := ch) ?_ ?_⟩
    · rw [hch, hs]
      exact nofun
    · rw [hch, Bank.has_range, ← hb]
      exact ⟨hlo, hhi⟩

end

/-! ### The response word (11.4) -/

section

theorem onesCount_append {m n : Nat} (x : BitVec m) (y : BitVec n) :
    onesCount (x ++ y) = onesCount x + onesCount y := by
  have hlow : (List.range n).countP (fun i => (x ++ y).getLsbD i) = onesCount y :=
    List.countP_congr fun i hi => by
      rw [BitVec.getLsbD_append, if_pos (List.mem_range.1 hi)]
  have hhigh : (List.range m).countP ((fun i => (x ++ y).getLsbD i) ∘ (n + ·)) = onesCount x :=
    List.countP_congr fun i _ => by
      rw [Function.comp_apply, BitVec.getLsbD_append, if_neg (by omega), Nat.add_sub_cancel_left]
  have hrange : List.range (m + n) = List.range n ++ (List.range m).map (n + ·) := by
    rw [Nat.add_comm, List.range_add]
  rw [onesCount, hrange, List.countP_append, List.countP_map, hlow, hhigh, Nat.add_comm]

theorem onesCount_ofBool (b : Bool) : onesCount (BitVec.ofBool b) = b.toNat := by
  cases b <;> decide

variable (sl : Slot) (r : Response)

/-- Bit 34 makes the number of ones even (R48). -/
theorem onesCount_responseWord : onesCount (responseWord sl r) % 2 = 0 := by
  rw [responseWord, onesCount_append, onesCount_ofBool]
  rcases Nat.mod_two_eq_zero_or_one (onesCount (responseBits sl r)) with h | h
  · simp [h]
  · simp [h, Nat.add_mod]

/-- A field of the response word below its parity bit. -/
theorem responseWord_extract {k n : Nat} (h : k + n ≤ 34) :
    (responseWord sl r).extractLsb' k n = (responseBits sl r).extractLsb' k n :=
  BitVec.extractLsb'_append_eq_of_add_le h

theorem responseBits_result : (responseBits sl r).extractLsb' 0 16 = r.result :=
  BitVec.extractLsb'_append_eq_right

/-- A field of the response word above RESULT. -/
theorem responseBits_above {k n : Nat} (h : 16 ≤ k) :
    (responseBits sl r).extractLsb' k n = (sl.kind ++ BitVec.ofNat 4 sl.channel.val ++ sl.tag ++
      r.disposition.code ++ BitVec.ofBool r.corrected ++ BitVec.ofBool r.clamped).extractLsb'
        (k - 16) n :=
  BitVec.extractLsb'_append_eq_of_le h

theorem responseBits_code : (responseBits sl r).extractLsb' 18 4 = r.disposition.code := by
  rw [responseBits_above sl r (by omega), BitVec.extractLsb'_append_eq_of_le (by omega),
    BitVec.extractLsb'_append_eq_of_le (by omega)]
  exact BitVec.extractLsb'_append_eq_right

/-- The echoed fields, above DISPOSITION. -/
theorem responseBits_echo {k n : Nat} (h : 22 ≤ k) : (responseBits sl r).extractLsb' k n =
    (sl.kind ++ BitVec.ofNat 4 sl.channel.val ++ sl.tag).extractLsb' (k - 22) n := by
  rw [responseBits_above sl r (by omega), BitVec.extractLsb'_append_eq_of_le (by omega),
    BitVec.extractLsb'_append_eq_of_le (by omega), BitVec.extractLsb'_append_eq_of_le (by omega)]
  congr 1

theorem responseBits_tag : (responseBits sl r).extractLsb' 22 6 = sl.tag := by
  rw [responseBits_echo sl r (by omega)]
  exact BitVec.extractLsb'_append_eq_right

theorem responseBits_channel :
    (responseBits sl r).extractLsb' 28 4 = BitVec.ofNat 4 sl.channel.val := by
  rw [responseBits_echo sl r (by omega), BitVec.extractLsb'_append_eq_of_le (by omega)]
  exact BitVec.extractLsb'_append_eq_right

theorem responseBits_kind : (responseBits sl r).extractLsb' 32 2 = sl.kind := by
  rw [responseBits_echo sl r (by omega), BitVec.extractLsb'_append_eq_of_le (by omega)]
  exact BitVec.extractLsb'_append_eq_left

theorem responseBits_flags : (responseBits sl r).extractLsb' 17 1 = BitVec.ofBool r.corrected ∧
    (responseBits sl r).extractLsb' 16 1 = BitVec.ofBool r.clamped := by
  refine ⟨?_, ?_⟩
  · rw [responseBits_above sl r (by omega), BitVec.extractLsb'_append_eq_of_le (by omega)]
    exact BitVec.extractLsb'_append_eq_right
  · rw [responseBits_above sl r (by omega)]
    exact BitVec.extractLsb'_append_eq_right

/-- The nine codes (Table 4-3). -/
theorem Disposition.code_toNat (d : Disposition) : d.code.toNat =
    match d with
    | .ok => 0
    | .substituted => 1
    | .held => 2
    | .rejected => 3
    | .suspended => 4
    | .channelOff => 5
    | .frameAck => 6
    | .linkParity => 7
    | .badKind => 8 := by
  cases d <;> rfl

theorem getLsbD_of_extract {n : Nat} {x : BitVec n} {k : Nat} {b : Bool}
    (h : x.extractLsb' k 1 = BitVec.ofBool b) : x.getLsbD k = b := by
  rw [BitVec.getLsbD_eq_extractLsb', h]
  cases b <;> rfl

end

/-! ### Delivery (R51, R60) -/

section
variable {s t v u : State} {o : Option Instr}

theorem State.offered_of_done {sl : Slot} {rest : List Slot} {r : Response}
    (hq : s.link.queue = sl :: rest) (hp : sl.phase = .done r) :
    s.offered = some (responseWord sl r) := by
  simp only [State.offered, hq, hp]

theorem State.offered_of_not_done (h : headDone s.link.queue = false) : s.offered = none := by
  unfold State.offered
  split
  · next sl rest hq =>
    split
    · next r hp => simp [hq, headDone, Slot.isDone, hp] at h
    · rfl
  · rfl

/-- Settles O21, by the head of the queue and by the fields of the response word. -/
theorem deliveryHandsOverTheHeadOnce : Obligations.DeliveryHandsOverTheHeadOnce := by
  refine ⟨fun s => ⟨fun sl rest r hq hp => ⟨fun ho => ?_, ?_, ?_⟩, fun h => ⟨fun ho => ?_, ?_, ?_⟩⟩,
    fun sl r => ⟨onesCount_responseWord sl r, ?_, ?_, ?_, ?_, ?_, ?_, ?_⟩⟩
  · show execDelivery s = _
    simp only [execDelivery, State.event_of_noGrantOwed ho, State.offered_of_done hq hp,
      Link.refreshOffer_eq, hq, List.tail_cons]
    rfl
  · rw [State.rsOffer, State.offered_of_done hq hp]
    rfl
  · rw [State.rsWord, State.offered_of_done hq hp]
    rfl
  · show execDelivery s = _
    simp only [execDelivery, State.event_of_noGrantOwed ho, State.offered_of_not_done h]
  · rw [State.rsOffer, State.offered_of_not_done h]
    rfl
  · rw [State.rsWord, State.offered_of_not_done h]
    rfl
  · exact (responseWord_extract sl r (by omega)).trans (responseBits_kind sl r)
  · rw [responseWord_extract sl r (by omega), responseBits_channel]
    exact Nat.mod_eq_of_lt sl.channel.isLt
  · exact (responseWord_extract sl r (by omega)).trans (responseBits_tag sl r)
  · rw [responseWord_extract sl r (by omega), responseBits_code]
    exact r.disposition.code_toNat
  · obtain ⟨hcorrected, -⟩ := responseBits_flags sl r
    exact getLsbD_of_extract ((responseWord_extract sl r (by omega)).trans hcorrected)
  · obtain ⟨-, hclamped⟩ := responseBits_flags sl r
    exact getLsbD_of_extract ((responseWord_extract sl r (by omega)).trans hclamped)
  · exact (responseWord_extract sl r (by omega)).trans (responseBits_result sl r)

/-! ### Link reset (R63, R64, R86) -/

/-- The engine is at work on a slot with this progress record. -/
def Engine.WorksOn (e : Engine) (p : Progress) : Prop :=
  e = .firstRead p ∨ ∃ x, e = .secondRead p x

theorem Engine.exists_worksOn {e : Engine} (h : e.evaluating = true) : ∃ p, e.WorksOn p := by
  cases e with
  | idle => cases h
  | draining ch b f => cases h
  | firstRead p => exact ⟨p, .inl rfl⟩
  | secondRead p x => exact ⟨p, .inr ⟨x, rfl⟩⟩

section
variable {p : Progress} {ch : Chan} {n : Snapshot} (h : s.engine.WorksOn p)
  (hr : readingSlot s.link.queue = some (ch, n))
include h

theorem State.accessAfterLinkReset_of_works : s.accessAfterLinkReset =
    if s.accessOf .lookup = true then s.store.access.map Access.discard else s.store.access := by
  rcases h with h | ⟨x, h⟩ <;> simp only [State.accessAfterLinkReset, h]

include hr

/-- The slot of an engine at work, dropped (R86). -/
theorem State.dropEngine_of_works : s.dropEngine =
    if s.accessOf .lookup = true then .draining ch n.bank p.anyFaulty else .idle := by
  rcases h with h | ⟨x, h⟩ <;> simp only [State.dropEngine, h, hr]

theorem State.reportDiscard_of_works : s.reportDiscard =
    if p.anyFaulty = true ∧ s.accessOf .lookup = false then s.reportFaulty ch else s := by
  rcases h with h | ⟨x, h⟩ <;> simp [State.reportDiscard, h, hr, Engine.faultyProgress]

end

/-- With no slot at work nothing is dropped or reported. -/
theorem State.discardSlots_of_not_works (ha : s.slotAgrees) (h : s.engine.evaluating = false) :
    s.discardSlots = { s with link := { s.link with queue := [], stall := none } } := by
  have hr : readingSlot s.link.queue = none := by
    rw [readingSlot_eq_none, ← countP_isReading_eq_zero]
    rw [State.slotAgrees, if_neg (by simp [h])] at ha
    exact ha
  have hreport : s.reportDiscard = s := by simp only [State.reportDiscard, hr]
  rcases he : s.engine with _ | p | ⟨p, x⟩ | ⟨ch, b, f⟩
  · simp only [State.discardSlots, hreport, State.accessAfterLinkReset, State.dropEngine, he]
    rw [← he]
    rfl
  · simp [he, Engine.evaluating] at h
  · simp [he, Engine.evaluating] at h
  · simp only [State.discardSlots, hreport, State.accessAfterLinkReset, State.dropEngine, he]
    rw [← he]
    rfl

theorem exec_linkRstAssert (ho : s.noGrantOwed) : exec .linkRstAssert s =
    .next (s.discardSlots.setLink { s.discardSlots.link with linkRst := true }).settle := by
  show execLinkRstAssert s = _
  rw [execLinkRstAssert, State.event_of_noGrantOwed ho]

/-- Settles O22, by what the engine is at work on and whether its read is granted. -/
theorem linkResetDiscardsEverySlot : Obligations.LinkResetDiscardsEverySlot := by
  intro s ho
  refine ⟨?_, fun ha => ⟨fun he => ?_, fun r he hacc => ?_, fun p ch n hw hr hacc => ?_⟩⟩
  · show execLinkRstRelease s = _
    rw [execLinkRstRelease, State.event_of_noGrantOwed ho]
    rfl
  · rw [exec_linkRstAssert ho, State.discardSlots_of_not_works (State.engineAgrees_iff.1 ha).1 he]
    rfl
  · obtain ⟨p, hw⟩ := Engine.exists_worksOn he
    obtain ⟨ch, n, hr⟩ := State.exists_readingSlot (State.engineAgrees_iff.1 ha).1 he
    have hof : s.accessOf .lookup = true := by simp [State.accessOf, hacc, Access.claimant]
    refine ⟨ch, n, p.anyFaulty, hr, hw.imp (fun h => ⟨p, h, rfl⟩) fun ⟨x, h⟩ => ⟨p, x, h, rfl⟩, ?_⟩
    rw [exec_linkRstAssert ho, State.settle_of_no_grant]
    · rw [State.discardSlots, State.reportDiscard_of_works hw hr, if_neg (by simp [hof]),
        State.accessAfterLinkReset_of_works hw, if_pos hof, hacc, State.dropEngine_of_works hw hr,
        if_pos hof]
      rfl
    · refine .inr (.inl ?_)
      simp [State.accessAfterLinkReset_of_works hw, hof, hacc]
  · intro q
    have hof : s.accessOf .lookup = false := by
      rw [Bool.eq_false_iff, Ne, State.accessOf_iff]
      rintro ⟨a, hsome, hcl⟩
      obtain ⟨r, i, rfl⟩ := Access.lookup_cases hcl
      exact hacc r i hsome
    have hq : s.reportDiscard = q := by
      rw [State.reportDiscard_of_works hw hr]
      simp [hof, q]
    have hstore : q.store = s.store := by
      simp only [q]
      split <;> simp
    rw [exec_linkRstAssert ho, State.discardSlots, hq, State.accessAfterLinkReset_of_works hw,
      if_neg (by simp [hof]), State.dropEngine_of_works hw hr, if_neg (by simp [hof]), ← hstore]
    rfl

end

end Sys2Proof.Machine

namespace Sys2Proof.Machine

/-! PROOFS. The completions of the lookup engine's reads (chapter 5) and the reports to the channels
(3.6). -/

section
variable {s t v u f : State} {o : Option Instr}

/-- With an access in progress no grant is owed. -/
theorem State.noGrantOwed_of_access {a : Access} (h : s.store.access = some a) : s.noGrantOwed :=
  fun _ hn => absurd (hn.symm.trans h) nofun

/-! ### The response, written out (R76 to R82) -/

/-- A progress record after one more read, each flag as its rule words it. -/
theorem Progress.note_eq (p : Progress) (x : ReadOutcome) : p.note x = { p with
    anyCorrected := p.anyCorrected || decide (x = .corrected)
    anyFaulty := p.anyFaulty || decide (x = .uncorrectable ∨ x = .poisoned) } := by
  cases x <;> rfl

theorem ReadOutcome.faulty_eq (x : ReadOutcome) :
    x.faulty = decide (x = .uncorrectable ∨ x = .poisoned) := by
  cases x <;> rfl

theorem clampOutput_eq (n : Snapshot) (y : Int) : clampOutput n y =
    (if y < n.clampLo.toInt then n.clampLo
      else if n.clampHi.toInt < y then n.clampHi else BitVec.ofInt 16 y,
    decide (y < n.clampLo.toInt ∨ n.clampHi.toInt < y)) := by
  unfold clampOutput
  split
  · next h => simp [h]
  · split <;> simp [*]

theorem lookupResponse_eq (n : Snapshot) (p : Progress) (y : Int) (lastGood : Data) :
    lookupResponse n p y lastGood =
      if p.anyFaulty = true then
        match n.policy with
        | .holdLast =>
          { disposition := .held, corrected := false, clamped := p.offsetClamped, result := lastGood }
        | .substitute =>
          { disposition := .substituted, corrected := false, clamped := p.offsetClamped
            result := n.substitute }
        | .reject =>
          { disposition := .rejected, corrected := false, clamped := p.offsetClamped, result := 0 }
      else
        { disposition := .ok, corrected := p.anyCorrected
          clamped := p.offsetClamped || decide (y < n.clampLo.toInt ∨ n.clampHi.toInt < y)
          result := if y < n.clampLo.toInt then n.clampLo
            else if n.clampHi.toInt < y then n.clampHi else BitVec.ofInt 16 y } := by
  cases hp : n.policy <;>
    simp only [lookupResponse, okResponse, clampOutput_eq, faultyResponse, hp]

theorem interpolate_eq (b : Bank) (x e : Data) (k : Nat) : interpolate b x e k =
    x.toInt + ((e.toInt - x.toInt) * k + 2 ^ (15 - b.order.toNat)) / 2 ^ (16 - b.order.toNat) := by
  simp [interpolate, Bank.half, Bank.interval]

/-! ### The reports (R39 to R41) -/

theorem Context.countFaulty_eq (c : Context) : c.countFaulty = { c with
    uncorrCount := if c.uncorrCount = 255 then 255 else c.uncorrCount + 1
    state :=
      if decide (c.suspendLimit ≠ 0 ∧ c.suspendLimit.toNat ≤
        (if c.uncorrCount = 255 then 255 else c.uncorrCount + 1).toNat ∧ c.state = .active) = true
      then .suspended else c.state } := by
  simp only [Context.countFaulty, satInc_byte, BitVec.le_def, decide_eq_true_eq]

/-- The SUSPENDED flag is set exactly if the count suspends an ACTIVE channel (R40). -/
theorem State.reportFaulty_eq (ch : Chan) {n : BitVec 8} {b : Bool}
    (h : s.channels[ch].countFaulty = { s.channels[ch] with
      uncorrCount := n, state := if b = true then .suspended else s.channels[ch].state })
    (hb : b = true → s.channels[ch].state = .active) : s.reportFaulty ch = { s with
      channels := s.channels.set ch s.channels[ch].countFaulty
      host := { s.host with flags := { s.host.flags with
        suspended := s.host.flags.suspended || b } } } := by
  unfold State.reportFaulty
  cases b with
  | true =>
    rw [if_pos ⟨hb rfl, by rw [h]; rfl⟩]
    simp [State.raiseSuspended, State.setFlags, State.setHost, State.setChan, State.setChannels]
  | false =>
    rw [if_neg]
    · simp [State.setChan, State.setChannels]
    · rintro ⟨ha, hs⟩
      rw [h] at hs
      exact ChanState.noConfusion (ha.symm.trans hs)

/-! ### The drained read (R64, R66, R86) -/

theorem State.drainStale_eq (r : ReadResult) (ch : Chan) (b : Bool) : s.drainStale r ch b =
    if b = true ∨ r.outcome = .uncorrectable ∨ r.outcome = .poisoned then
      (s.fileRead r .lookup (some ch)).reportFaulty ch
    else s.fileRead r .lookup (some ch) := by
  simp only [State.drainStale, ReadOutcome.faulty_eq, Bool.or_eq_true, decide_eq_true_eq]

theorem exec_drainedReadCompletion {r : ReadResult} {i : Interest} {ch : Chan} {b : Bank} {x : Bool}
    (ha : s.store.access = some (.read .lookup r i)) (he : s.engine = .draining ch b x) :
    exec .drainedReadCompletion s = .next
      (if i = .dropped then ({ s.storeFreed with engine := .idle } : State)
        else ({ s.storeFreed with engine := .idle } : State).drainStale r ch x).takeSlot.settle := by
  show execDrainedReadCompletion s = _
  simp only [execDrainedReadCompletion,
    State.event_of_noGrantOwed (State.noGrantOwed_of_access ha), ha, he]
  rfl

/-- Settles O27, by the count that may suspend and by the interest of the drained read. -/
theorem faultyReadsAreReportedToTheirChannel : Obligations.FaultyReadsAreReportedToTheirChannel := by
  refine ⟨fun s ch => ?_, fun s r i ch b f ha he => ⟨fun hi => ?_, fun hi => ?_⟩⟩
  · intro c n suspends
    rw [State.reportFaulty_eq ch (Context.countFaulty_eq _)
      fun h => (of_decide_eq_true h).2.2, Context.countFaulty_eq]
  · rw [exec_drainedReadCompletion ha he, if_pos hi]
  · intro q
    rw [exec_drainedReadCompletion ha he, if_neg hi, State.drainStale_eq]

/-! ### The reads of a slot (R73, R74, R80, R83) -/

theorem exec_lookupReadCompletion {r : ReadResult} {i : Interest} {ch : Chan} {n : Snapshot}
    (ha : s.store.access = some (.read .lookup r i)) (hr : readingSlot s.link.queue = some (ch, n))
    (he : s.engine.evaluating = true) :
    exec .lookupReadCompletion s = .next
      ((s.storeFreed.fileRead r .lookup (some ch)).lookupRead r ch n).settleLookup := by
  show execLookupReadCompletion s = _
  simp only [execLookupReadCompletion,
    State.event_of_noGrantOwed (State.noGrantOwed_of_access ha), ha, hr, he]
  rfl

/-- The last read of a slot, with its value (R73, R74, R77). -/
def State.LastRead (s : State) (n : Snapshot) (r : ReadResult) (p : Progress) (y : Int) : Prop :=
  s.engine = .firstRead p ∧ n.bank.mode = .nearest ∧ y = r.data.toInt ∨
    ∃ e, s.engine = .secondRead p e ∧ y = interpolate n.bank e.data r.data p.fraction

theorem State.lookupRead_of_last {n : Snapshot} {r : ReadResult} {p : Progress} {y : Int}
    (h : s.LastRead n r p y) (ch : Chan) :
    s.lookupRead r ch n = s.completeLookup ch n (p.note r.outcome) y := by
  rcases h with ⟨he, hm, rfl⟩ | ⟨e, he, rfl⟩
  · simp only [State.lookupRead, he, hm]
  · simp only [State.lookupRead, he]

/-- After a completion the engine has no second read to present. -/
theorem State.settleLookup_of_completed (ch : Chan) (n : Snapshot) (p : Progress) (y : Int) :
    (s.completeLookup ch n p y).settleLookup = (s.completeLookup ch n p y).settle := by
  obtain ⟨u, r, hu, hidle, -, -⟩ := State.completeLookup_takes (s := s) ch n p y
  rw [hu]
  unfold State.settleLookup
  split
  · next p' e he =>
    rcases State.takeSlot_idle_cases hidle with ⟨-, ht⟩ | ⟨_, _, _, _, _, -, -, ht⟩
    · rw [ht, hidle] at he
      cases he
    · rw [ht] at he
      cases he
  · rfl

/-- The link after the READING slot has become DONE in its place (R80, R61). -/
theorem Link.refreshOffer_finished {l : Link} {pre post : List Slot} {sl : Slot} {x : Data}
    {n : Snapshot} (hf : l.stall.isSome = headDone l.queue) (hq : l.queue = pre ++ sl :: post)
    (hpre : ∀ y ∈ pre, y.isReading = false) (hs : sl.phase = .reading x n) (r : Response) :
    ({ l with queue := finishReading r l.queue } : Link).refreshOffer = { l with
      queue := pre ++ { sl with phase := .done r } :: post
      stall := if pre = [] then some { elapsed := 0, expired := false } else l.stall } := by
  rw [Link.refreshOffer_eq, hq, finishReading_split r hpre hs]
  rw [hq] at hf
  cases pre with
  | nil =>
    have hnone : l.stall = none := by simpa [headDone, Slot.isDone, hs] using hf
    simp [headDone, Slot.isDone, hnone]
  | cons y pre =>
    have hhead : l.stall.isSome = y.isDone := hf
    cases hst : l.stall with
    | none => simp [headDone, ← hhead, hst]
    | some w => simp [headDone, ← hhead, hst]

/-- Settles O24, by the engine's state: the first read of a LINEAR slot goes on, and a last read
completes the lookup. -/
theorem lookupReadsLeadToTheResponse : Obligations.LookupReadsLeadToTheResponse := by
  refine ⟨fun s r i p ch n ha he hr hm => ?_, fun s r i p pre post sl x n y ha hf hq hpre hs hlast => ?_⟩
  · have hengine : (s.storeFreed.fileRead r .lookup (some ch)).engine = .firstRead p := by
      simpa [State.storeFreed] using he
    have hread : (s.storeFreed.fileRead r .lookup (some ch)).lookupRead r ch n =
        (s.storeFreed.fileRead r .lookup (some ch)).setEngine
          (.secondRead (p.note r.outcome) ⟨r.data, r.outcome⟩) := by
      simp only [State.lookupRead, hengine, hm]
    rw [exec_lookupReadCompletion ha hr (by rw [he]; rfl), hread, Progress.note_eq]
    rfl
  · intro f c faulty corrected acted value answer reported
    have hr : readingSlot s.link.queue = some (sl.channel, n) := by
      rw [hq]
      exact readingSlot_split hpre hs
    have hev : s.engine.evaluating = true := by
      rcases hlast with ⟨he, -⟩ | ⟨e, he, -⟩ <;> rw [he] <;> rfl
    obtain ⟨hfe, hfl, hfc⟩ : f.engine = s.engine ∧ f.link = s.link ∧ f.channels = s.channels := by
      simp [f, State.storeFreed]
    have hlastRead : f.LastRead n r p y := by
      rw [State.LastRead, hfe]
      simpa only [interpolate_eq] using hlast
    have hanswer :
        lookupResponse n (p.note r.outcome) y f.channels[sl.channel].lastGood = answer := by
      rw [hfc, Progress.note_eq]
      exact lookupResponse_eq n _ y _
    have hreported : f.report sl.channel (p.note r.outcome) answer = reported := by
      have hnote : (p.note r.outcome).anyFaulty = faulty := by rw [Progress.note_eq]
      unfold State.report
      rw [hnote]
      by_cases hx : faulty = true
      · exact (if_pos hx).trans (if_pos hx).symm
      · have hvalue : answer.result = value := congrArg Response.result (if_neg hx)
        have hgood : f.reportGood sl.channel answer.result =
            f.withChan sl.channel { c with lastGood := value } := by
          rw [hvalue, State.reportGood, hfc]
          rfl
        exact ((if_neg hx).trans hgood).trans (if_neg hx).symm
    rw [exec_lookupReadCompletion ha hr hev, State.lookupRead_of_last hlastRead,
      State.settleLookup_of_completed, State.completeLookup, hanswer, hreported, hfl,
      Link.refreshOffer_finished hf hq hpre hs]
    rfl

end

end Sys2Proof.Machine

namespace Sys2Proof.Machine

/-! PROOFS. The host's bus and the table port (10.2). -/

section
variable {s t v u f : State} {o : Option Instr}

/-! ### The bus (R157) -/

/-- The commands that are accesses of the host's bus. -/
def hostAccesses (d : Data) (sel : BitVec 5) (low : BitVec 8) : List Instr :=
  [.tablePointerWrite d, .tableDataRead, .tableDataWrite d, .tablePortStatusClear d,
    .intStatusWrite d, .intEnableWrite d, .winAddrWrite d, .winDataRead, .winDataWrite d,
    .timebaseWrite d, .patrolCtrlWrite d, .patrolIntervalWrite d, .linkCtrlWrite d,
    .linkTimeoutWrite d, .registerWrite sel d, .enable low, .disable low, .resume low, .arm low,
    .disarm low, .fill low, .verify low, .retire low, .abortJobs low, .popError low,
    .popCompletion low, .clearLoss low, .softReset low, .unknownCommand d]

/-- What each access does on a free bus. -/
def busEffect : Instr → State → State
  | .tablePointerWrite d => (·.writeTablePointer d)
  | .tableDataRead => State.readTableData
  | .tableDataWrite d => (·.writeTableData d)
  | .tablePortStatusClear d => (·.clearPortStatus d)
  | .intStatusWrite d => (·.writeIntStatus d)
  | .intEnableWrite d => (·.writeIntEnable d)
  | .winAddrWrite d => (·.writeWinAddr d)
  | .winDataRead => fun s => (s.returnData s.winData).advanceIndex
  | .winDataWrite d => (·.writeWinData d)
  | .timebaseWrite d => (·.writeTimebase d)
  | .patrolCtrlWrite d => (·.writePatrolCtrl d)
  | .patrolIntervalWrite d => (·.writePatrolInterval d)
  | .linkCtrlWrite d => (·.writeLinkCtrl d)
  | .linkTimeoutWrite d => (·.writeLinkTimeout d)
  | .registerWrite sel d => (·.writeRegister sel d)
  | .enable low => (·.writeCommand (·.enableChan (commandChannel low)))
  | .disable low => (·.writeCommand (·.disableChan (commandChannel low)))
  | .resume low => (·.writeCommand (·.resumeChan (commandChannel low)))
  | .arm low => (·.writeCommand (·.armChan (commandChannel low)))
  | .disarm low => (·.writeCommand (·.disarmChan (commandChannel low)))
  | .fill _ => (·.writeCommand State.fillCommand)
  | .verify _ => (·.writeCommand State.verifyCommand)
  | .retire _ => (·.writeCommand State.retireCommand)
  | .abortJobs _ => (·.writeCommand State.abortCommand)
  | .popError _ => (·.writeCommand State.popErrorCommand)
  | .popCompletion _ => (·.writeCommand State.popCompletionCommand)
  | .clearLoss _ => (·.writeCommand State.clearLossCommand)
  | .softReset _ => (·.writeCommand (·.softReset.settle))
  | .unknownCommand d => (·.writeCommand (·.takeCommandWord d))
  | _ => id

theorem exec_hostAccess {d : Data} {sel : BitVec 5} {low : BitVec 8} {c : Instr}
    (h : c ∈ hostAccesses d sel low) : exec c s = s.whenBusFree (busEffect c) := by
  simp only [hostAccesses] at h
  fin_cases h <;> rfl

/-- Settles O29: every host access goes through the bus, which a stretched one holds. -/
theorem stretchedAccessHoldsTheBus : Obligations.StretchedAccessHoldsTheBus := by
  intro s d sel low hs ho c hc
  rw [exec_hostAccess hc, State.whenBusFree_of_stretch hs, State.grantOwed_of_noGrantOwed ho]

/-! ### START_UP (R167) -/

theorem State.tablePortStatus_idle (hc : s.host.refusedCount = 0) (hp : s.host.posted = none)
    (hh : s.host.holder = .empty) (ho : s.host.outcome = .starting) : s.tablePortStatus = 5 := by
  rw [State.tablePortStatus, hc, hp, hh, ho]
  decide

/-- Settles O30: in START_UP the bus is free, nothing is owed, and the port's registers stand at their
reset values. -/
theorem tablePortIsIdleInStartUp : Obligations.TablePortIsIdleInStartUp := by
  intro s d hd hq ho hc ha
  obtain ⟨-, -, -, -, -, -, -, -, -, -, hholder, hposted, hstretch, -⟩ := hq.1 hd
  have htakes : s.takesHostAccess := ⟨hstretch, fun hr => by rw [hd] at hr; cases hr⟩
  refine ⟨?_, ?_, ?_, ?_, State.tablePortStatus_idle hc hposted hholder ho, ?_, rfl⟩
  · refine (State.whenBusFree_of_takes htakes State.readTableData).trans ?_
    rw [State.readTableData, hd]
    rfl
  · refine (State.whenBusFree_of_takes htakes (·.writeTableData d)).trans ?_
    simp only [State.writeTableData, hd]
  · refine (State.whenBusFree_of_takes htakes (·.writeTablePointer d)).trans ?_
    simp only [State.writeTablePointer, hd]
  · refine (State.whenBusFree_of_takes htakes (·.clearPortStatus d)).trans ?_
    rw [State.clearPortStatus, ← hc]
    split <;> rfl
  · show s.host.refusedAddress.setWidth 16 = 0
    rw [ha]
    rfl

/-! ### The prefetch of the old pointer (R160) -/

theorem State.discardPrefetch_of_granted {r : ReadResult}
    (h : s.store.access = some (.read .prefetch r .wanted)) :
    s.discardPrefetch = { s.store with access := some (.read .prefetch r .stale) } := by
  simp only [State.discardPrefetch, h]

theorem State.discardPrefetch_of_not_granted
    (h : ∀ r, s.store.access ≠ some (.read .prefetch r .wanted)) : s.discardPrefetch =
      if s.hostClaim = some .prefetch then { s.store with hostWait := 0 } else s.store := by
  unfold State.discardPrefetch
  split
  · next r hr => exact absurd hr (h r)
  · rfl

theorem State.discardPrefetch_of_waiting (h : s.hostClaim = some .prefetch) :
    s.discardPrefetch = { s.store with hostWait := 0 } := by
  rw [State.discardPrefetch_of_not_granted, if_pos h]
  intro r hr
  obtain ⟨hno, -⟩ := State.hostClaim_cases h
  simp [State.accessOf, hr, Access.claimant] at hno

theorem State.discardPrefetch_of_neither (h : ∀ r, s.store.access ≠ some (.read .prefetch r .wanted))
    (hc : s.hostClaim ≠ some .prefetch) : s.discardPrefetch = s.store := by
  rw [State.discardPrefetch_of_not_granted h, if_neg hc]

/-! ### The accesses of TABLE_POINTER and TABLE_DATA in RUNNING (R160, R162, R163) -/

theorem exec_tablePointerWrite (h : s.takesCommands) (d : Data) :
    exec (.tablePointerWrite d) s = .next ({ s with
      store := s.discardPrefetch
      host := { s.host with pointer := d.extractLsb' 0 13, holder := .pending } } : State).settle := by
  refine (State.whenBusFree_of_takes h.1 (·.writeTablePointer d)).trans ?_
  simp only [State.writeTablePointer, h.2]
  rfl

theorem exec_tableDataRead (h : s.takesCommands) :
    exec .tableDataRead s = .next s.readHolder := by
  refine (State.whenBusFree_of_takes h.1 State.readTableData).trans ?_
  rw [State.readTableData, h.2]

theorem exec_tableDataWrite (h : s.takesCommands) (d : Data) :
    exec (.tableDataWrite d) s = .next (s.post d) := by
  refine (State.whenBusFree_of_takes h.1 (·.writeTableData d)).trans ?_
  simp only [State.writeTableData, h.2]

/-- A write posted at once (R163). -/
theorem State.post_of_none (hs : s.host.stretch = none) (hp : s.host.posted = none) (d : Data) :
    s.post d = ({ s with
      store := s.discardPrefetch
      host := { s.host with
        pointer := s.host.pointer + 1, holder := .pending
        posted := some { address := s.host.pointer, data := d } } } : State).settle := by
  rw [State.post, hp, State.postWrite_eq, ← hs]
  rfl

/-- Settles O31, by what becomes of the old pointer's prefetch and by the holder. -/
theorem tablePortAccessesFollowTheHolder : Obligations.TablePortAccessesFollowTheHolder := by
  refine ⟨fun s d h => ⟨fun r hr => ?_, fun hc => ?_, fun hr hc => ?_⟩,
    fun s h => ⟨fun d x hh => ?_, fun hh => ?_, fun hh => ?_⟩,
    fun s d h => ⟨fun hp => ?_, fun hp => ⟨fun r hr => ?_, fun hc => ?_, fun hr hc => ?_⟩⟩⟩
  · rw [exec_tablePointerWrite h, State.discardPrefetch_of_granted hr]
  · rw [exec_tablePointerWrite h, State.discardPrefetch_of_waiting hc]
  · rw [exec_tablePointerWrite h, State.discardPrefetch_of_neither hr hc]
  · have hs : s.host.stretch = none := h.1.1
    simp only [exec_tableDataRead h, State.readHolder, hh, State.endTableRead_eq]
    rw [← hs]
  · simp only [exec_tableDataRead h, State.readHolder, hh]
    rfl
  · simp only [exec_tableDataRead h, State.readHolder, hh]
    rfl
  · rw [exec_tableDataWrite h, State.post, if_pos hp]
    rfl
  · rw [exec_tableDataWrite h, State.post_of_none h.1.1 hp, State.discardPrefetch_of_granted hr]
  · rw [exec_tableDataWrite h, State.post_of_none h.1.1 hp, State.discardPrefetch_of_waiting hc]
  · rw [exec_tableDataWrite h, State.post_of_none h.1.1 hp, State.discardPrefetch_of_neither hr hc]

/-! ### The completions (R161 to R164, R177) -/

theorem exec_prefetchCompletion {r : ReadResult} {i : Interest}
    (h : s.store.access = some (.read .prefetch r i)) : exec .prefetchCompletion s = .next
      (if i = .dropped then s.storeFreed else s.storeFreed.prefetchDone r i).settle := by
  show execPrefetchCompletion s = _
  simp only [execPrefetchCompletion, State.event_of_noGrantOwed (State.noGrantOwed_of_access h), h]
  rfl

theorem ReadOutcome.shown_eq (x : ReadOutcome) : x.shown = match x with
    | .clean => .clean
    | .corrected => .corrected
    | .uncorrectable => .uncorrectable
    | .poisoned => .poisoned := by
  cases x <;> rfl

theorem exec_postedWriteCompletion {key : Option Nat} {i : Interest}
    (h : s.store.access = some (.write .posted key i)) :
    ((∀ d, s.host.stretch ≠ some (.write d)) → exec .postedWriteCompletion s = .next
      ({ s.storeFreed with host := { s.host with posted := none } } : State).settle) ∧
    (∀ d, s.host.stretch = some (.write d) →
      exec .postedWriteCompletion s = .next (s.storeFreed.postWrite d).settle) := by
  have hexec : exec .postedWriteCompletion s = execPostedWriteCompletion s := rfl
  rw [hexec, execPostedWriteCompletion, State.event_of_noGrantOwed (State.noGrantOwed_of_access h)]
  simp only [h]
  refine ⟨fun hs => ?_, fun d hs => ?_⟩
  · split
    · next d hd => exact absurd hd (hs d)
    · rfl
  · rw [hs]
    rfl

/-- Settles O32, by the interest of the prefetch and by the stretched access. -/
theorem tablePortCompletionsEndStretches : Obligations.TablePortCompletionsEndStretches := by
  refine ⟨fun s r i ha => ?_, fun s key i ha => ⟨fun hs => ?_, fun d hs hp => ?_⟩⟩
  · intro f shown
    have hshown : shown = r.outcome.shown := (ReadOutcome.shown_eq _).symm
    obtain ⟨g, hg⟩ := s.storeFreed.fileRead_host r .host none
    have hstretch : f.host.stretch = s.host.stretch := by simp only [f, hg]; rfl
    have hpointer : f.host.pointer = s.host.pointer := by simp only [f, hg]; rfl
    have hout : f.outputs = s.outputs := by simp [f, State.storeFreed]
    rw [exec_prefetchCompletion ha, State.prefetchDone_cases, hshown, ← hpointer, ← hstretch, ← hout]
    refine ⟨fun hi hs => ?_, fun hi hs => ?_, fun hi => ?_, fun hi => ?_⟩
    · rw [if_neg (by simp [hi])]
      dsimp only
      rw [if_pos hi, if_neg hs]
    · rw [if_neg (by simp [hi])]
      dsimp only
      rw [if_pos hi, if_pos hs]
      rfl
    · rw [if_neg (by simp [hi])]
      dsimp only
      rw [if_neg (by simp [hi])]
    · rw [if_pos hi]
  · exact (exec_postedWriteCompletion ha).1 hs
  · have hclaim : s.storeFreed.hostClaim ≠ some .prefetch := fun hc => by
      obtain ⟨-, ⟨hk, -⟩ | ⟨-, hn, -⟩⟩ := State.hostClaim_cases hc
      · cases hk
      · rw [show s.host.posted = none from hn] at hp
        cases hp
    have hfree : ∀ r, s.storeFreed.store.access ≠ some (.read .prefetch r .wanted) :=
      fun r => (Option.some_ne_none _).symm
    rw [(exec_postedWriteCompletion ha).2 d hs, State.postWrite_eq,
      State.discardPrefetch_of_neither hfree hclaim]
    rfl

end

end Sys2Proof.Machine

namespace Sys2Proof.Machine

/-! PROOFS. The host registers (10.1, 10.3, 10.5, 10.6, 9.1): the interrupt registers, WIN_ADDR and what
the windows show, the plain registers, and PATROL_CTRL. -/

section
variable {s t v u f : State} {o : Option Instr}

/-! ### Interrupts (R174, R175) -/

/-- A write of INT_STATUS on a free bus. -/
theorem exec_intStatusWrite (h : s.takesHostAccess) (d : Data) : exec (.intStatusWrite d) s =
    .next { s with host := { s.host with flags := s.host.flags.clearBits d } } :=
  State.whenBusFree_of_takes h (·.writeIntStatus d)

/-- The eleven flags, bit by bit (Table 11-2). -/
theorem State.intStatus_getLsbD (i : Nat) : s.intStatus.getLsbD i =
    ([s.host.flags.startDone, s.logNonempty, s.host.flags.logUncorr, s.host.flags.logLoss, s.jobDone,
      s.host.flags.swapDone, s.host.flags.suspended, s.host.flags.linkError, s.host.flags.linkStall,
      s.host.flags.writeRefused, s.host.flags.sparesExhausted] : List Bool).getD i false :=
  BitVec.getLsbD_ofBoolListLE

/-- INT# is asserted exactly while a set flag is enabled. -/
theorem State.intAsserted_iff : s.intAsserted = true ↔
    ∃ i : Fin 11, s.intStatus.getLsbD i = true ∧ s.host.intEnable.getLsbD i = true := by
  rw [State.intAsserted, bne_iff_ne]
  refine ⟨fun h => ?_, fun ⟨i, hs, he⟩ h => ?_⟩
  · by_contra hno
    refine h (BitVec.eq_of_getLsbD_eq fun i hi => ?_)
    have hoff : (s.intStatus &&& s.host.intEnable).getLsbD i = false := by
      rw [BitVec.getLsbD_and, Bool.eq_false_iff]
      exact fun hand => hno ⟨⟨i, hi⟩, by simpa using hand⟩
    exact hoff.trans BitVec.getLsbD_zero.symm
  · have hbit : (s.intStatus &&& s.host.intEnable).getLsbD i = false := by
      rw [h]
      exact BitVec.getLsbD_zero
    rw [BitVec.getLsbD_and, hs, he] at hbit
    cases hbit

/-- Settles O33, bit by bit. -/
theorem interruptFlagsAreClearedByOnes : Obligations.InterruptFlagsAreClearedByOnes := by
  intro s d
  refine ⟨fun h => ⟨⟨_, exec_intStatusWrite h d, fun i => ?_, rfl⟩,
      State.whenBusFree_of_takes h (·.writeIntEnable d)⟩,
    ?_, ?_, ?_, rfl, rfl, State.intAsserted_iff⟩
  · simp only [State.intStatus_getLsbD]
    fin_cases i <;> rfl
  · simp only [State.intStatus_getLsbD]
    exact ⟨rfl, rfl, rfl, rfl, rfl, rfl, rfl, rfl, rfl⟩
  · rw [State.intStatus_getLsbD]
    cases hr : s.errors.records <;> simp [State.logNonempty, hr]
  · rw [State.intStatus_getLsbD]
    cases hr : s.maint.completions <;> simp [State.jobDone, hr]

/-! ### WIN_ADDR and the reads of WIN_DATA (R169, R170) -/

theorem Window.size_eq (w : Window) : w.size = match w with
    | .context => 256
    | .errorHead => 8
    | .completionHead => 8
    | .spareMap => 32 := by
  cases w <;> rfl

/-- An index reduced by its window's size fits the index register. -/
theorem Window.index_toNat (w : Window) (k : Nat) : (BitVec.ofNat 8 (k % w.size)).toNat = k % w.size := by
  rw [BitVec.toNat_ofNat, Nat.mod_eq_of_lt]
  have hpos : 0 < w.size := by cases w <;> decide
  have hle : w.size ≤ 2 ^ 8 := by cases w <;> decide
  exact (Nat.mod_lt k hpos).trans_le hle

theorem decodeWindow_eq (d : Data) (h : d.toNat / 2 ^ 14 < 4) :
    decodeWindow d =
      ([Window.context, .errorHead, .completionHead, .spareMap])[d.toNat / 2 ^ 14]'h := by
  have hbits : d.extractLsb' 14 2 = BitVec.ofNat 2 (d.toNat / 2 ^ 14) := by
    apply BitVec.eq_of_toNat_eq
    rw [BitVec.extractLsb'_toNat, BitVec.toNat_ofNat, Nat.shiftRight_eq_div_pow]
  unfold decodeWindow
  rw [hbits]
  generalize d.toNat / 2 ^ 14 = q at h
  interval_cases q <;> rfl

theorem State.winAddr_toNat : s.winAddr.toNat = s.host.index.toNat + 16384 *
    (match s.host.window with
    | .context => 0
    | .errorHead => 1
    | .completionHead => 2
    | .spareMap => 3) := by
  have hindex : (s.host.index.setWidth 16).toNat = s.host.index.toNat :=
    BitVec.toNat_setWidth_of_le (by decide)
  have hlt := s.host.index.isLt
  rw [State.winAddr, toNat_shiftLeft_or, hindex]
  · cases s.host.window <;> simp [Window.code, Nat.add_comm]
  · cases s.host.window <;> decide
  · omega

/-- Settles O34, by the fields of the word written and the window's size. -/
theorem windowAddressWrapsAtItsSize : Obligations.WindowAddressWrapsAtItsSize := by
  intro s d
  refine ⟨fun h => ⟨⟨_, State.whenBusFree_of_takes h (·.writeWinAddr d), decodeWindow_eq d _, ?_, rfl⟩,
    ⟨_, State.whenBusFree_of_takes h fun s => (s.returnData s.winData).advanceIndex, rfl, ?_, rfl⟩⟩,
    State.winAddr_toNat⟩
  · have hlow : (d.extractLsb' 0 8).toNat = d.toNat % 256 := BitVec.extractLsb'_toNat 0 8 d
    refine ((decodeWindow d).index_toNat _).trans ?_
    rw [hlow]
    exact congrArg _ (Window.size_eq _)
  · exact (s.host.window.index_toNat _).trans (congrArg _ (Window.size_eq _))

end

end Sys2Proof.Machine

namespace Sys2Proof.Machine

/-! PROOFS. What WIN_DATA shows (3.3, 6.4, 7.3, 8.4, 11.5): each field of the four windows as a number. -/

section
variable {s t v u f : State} {o : Option Instr}

/-! ### The CONTEXT window (Table 11-7) -/

theorem Bank.orderWord_toNat (b : Bank) : b.orderWord.toNat = b.order.toNat + (match b.mode with
    | .nearest => 0
    | .linear => 256) := by
  have horder : (b.order.setWidth 16).toNat = b.order.toNat := BitVec.toNat_setWidth_of_le (by decide)
  have hlt := b.order.isLt
  rw [Bank.orderWord, toNat_shiftLeft_or, horder, Nat.add_comm]
  · cases b.mode <;> rfl
  · cases b.mode <;> decide
  · omega

/-- The position word: STATE, ARMED and ACTIVE_BANK. -/
theorem Context.positionWord_toNat (c : Context) : (c.readField 0).toNat =
    (match c.state with
      | .disabled => 0
      | .active => 1
      | .suspended => 2) + (if c.armed = true then 16 else 0) +
    (match c.activeBank with
      | .a => 0
      | .b => 256) := by
  unfold Context.readField
  cases c.activeBank <;> cases c.armed <;> cases c.state <;> rfl

theorem Context.readField_toNat (c : Context) (i : Nat) : i < 16 → (c.readField i).toNat =
    match i with
    | 0 => (match c.state with
        | .disabled => 0
        | .active => 1
        | .suspended => 2) + (if c.armed = true then 16 else 0) +
      (match c.activeBank with
        | .a => 0
        | .b => 256)
    | 1 => c.bankA.base.toNat
    | 2 => c.bankA.order.toNat + (match c.bankA.mode with
        | .nearest => 0
        | .linear => 256)
    | 3 => c.bankB.base.toNat
    | 4 => c.bankB.order.toNat + (match c.bankB.mode with
        | .nearest => 0
        | .linear => 256)
    | 5 => c.inOffset.toNat
    | 6 => c.clampLo.toNat
    | 7 => c.clampHi.toNat
    | 8 => (match c.policy with
        | .holdLast => 0
        | .substitute => 1
        | .reject => 2)
    | 9 => c.substitute.toNat
    | 10 => c.suspendLimit.toNat
    | 11 => c.uncorrCount.toNat
    | 12 => c.lastGood.toNat
    | 13 => c.swapFrame.toNat
    | _ => 0 := by
  intro h
  interval_cases i
  · exact c.positionWord_toNat
  · exact BitVec.toNat_setWidth_of_le (by decide)
  · exact c.bankA.orderWord_toNat
  · exact BitVec.toNat_setWidth_of_le (by decide)
  · exact c.bankB.orderWord_toNat
  · rfl
  · rfl
  · rfl
  · unfold Context.readField; cases c.policy <;> rfl
  · rfl
  · exact BitVec.toNat_setWidth_of_le (by decide)
  · exact BitVec.toNat_setWidth_of_le (by decide)
  · rfl
  · rfl
  · rfl
  · rfl

/-- The channel and the field that an index of the CONTEXT window names (3.3). -/
theorem index_fields {i : BitVec 8} {ch : Chan} {k : Nat} (hk : k < 16)
    (h : i.toNat = ch.val * 16 + k) : indexChannel i = ch ∧ indexField i = k := by
  have hch := ch.isLt
  refine ⟨Fin.ext ?_, ?_⟩
  · show (i.extractLsb' 4 4).toNat = ch.val
    rw [BitVec.extractLsb'_toNat, Nat.shiftRight_eq_div_pow, h]
    omega
  · rw [indexField, BitVec.extractLsb'_toNat, Nat.shiftRight_zero, h]
    omega

/-! ### The head records (Tables 11-8, 11-9) -/

theorem Place.locationWord_toNat (p : Place) : (Place.locationWord p).toNat = match p with
    | .main _ => 0
    | .spare k => 16 + k.val := by
  cases p with
  | main a => rfl
  | spare k =>
    have hk := k.isLt
    have hsum : (Place.locationWord (.spare k)).toNat = (16 + k.val % 2 ^ 16) % 2 ^ 16 := by
      rw [Place.locationWord, BitVec.toNat_add, BitVec.toNat_ofNat]
      rfl
    rw [hsum]
    show _ = 16 + k.val
    omega

/-- A number of four bits, or all ones (R99, R133). -/
theorem fourBits_toNat (c : Option (Fin 16)) : (match c with
    | some k => BitVec.ofNat 16 k.val
    | none => 0xFFFF).toNat = match c with
    | some k => k.val
    | none => 65535 := by
  cases c with
  | none => rfl
  | some k => exact Nat.mod_eq_of_lt (k.isLt.trans (by decide))

theorem ErrorRecord.readField_toNat (r : ErrorRecord) (i : Nat) :
    i < 8 → (r.readField i).toNat =
    match i with
    | 0 => (match r.kind with
        | .corrected => 1
        | .uncorrectable => 2
        | .poisoned => 3) +
      (match r.source with
        | .lookup => 0
        | .host => 16
        | .patrol => 32
        | .job => 48)
    | 1 => r.address.toNat
    | 2 => (match r.place with
        | .main _ => 0
        | .spare k => 16 + k.val)
    | 3 => r.syndrome.toNat
    | 4 => (match r.channel with
        | some ch => ch.val
        | none => 65535)
    | 5 => r.count.toNat
    | 6 => r.firstFrame.toNat
    | _ => r.lastFrame.toNat := by
  intro h
  interval_cases i
  · unfold ErrorRecord.readField; cases r.kind <;> cases r.source <;> rfl
  · exact BitVec.toNat_setWidth_of_le (by decide)
  · exact Place.locationWord_toNat r.place
  · exact BitVec.toNat_setWidth_of_le (by decide)
  · exact fourBits_toNat r.channel
  · exact BitVec.toNat_setWidth_of_le (by decide)
  · rfl
  · rfl

theorem Completion.readField_toNat (r : Completion) (i : Nat) : i < 8 → (r.readField i).toNat =
    match i with
    | 0 => r.id.toNat
    | 1 => (match r.kind with
        | .fill => 1
        | .verify => 2
        | .retire => 3)
    | 2 => (match r.outcome with
        | .done => 0
        | .aborted => 1
        | .noSpare => 2)
    | 3 => r.start.toNat
    | 4 => r.wordsDone % 65536
    | 5 => r.correctedFound % 65536
    | 6 => r.uncorrFound % 65536
    | _ => (match r.slot with
        | some k => k.val
        | none => 65535) := by
  intro h
  interval_cases i
  · exact BitVec.toNat_setWidth_of_le (by decide)
  · unfold Completion.readField; cases r.kind <;> rfl
  · unfold Completion.readField; cases r.outcome <;> rfl
  · exact BitVec.toNat_setWidth_of_le (by decide)
  · exact BitVec.toNat_ofNat _ _
  · exact BitVec.toNat_ofNat _ _
  · exact BitVec.toNat_ofNat _ _
  · exact fourBits_toNat r.slot

/-! ### The SPARE_MAP window (Table 11-10) -/

theorem SpareSlot.stateWord_toNat (w : SpareSlot) : w.stateWord.toNat = (match w.state with
    | .free => 0
    | .mapped => 1
    | .defective => 2) + (if w.poison = true then 16 else 0) := by
  unfold SpareSlot.stateWord
  cases w.state <;> cases w.poison <;> rfl

/-- The slot that an index of the SPARE_MAP window names, and which of its two fields (R110). -/
theorem spareIndex_even {i : BitVec 8} {k : SlotNo} (h : i.toNat = k.val * 2) :
    (i.extractLsb' 1 4).toFin = k ∧ i.getLsbD 0 = false := by
  have hk := k.isLt
  refine ⟨Fin.ext ?_, ?_⟩
  · show (i.extractLsb' 1 4).toNat = k.val
    rw [BitVec.extractLsb'_toNat, Nat.shiftRight_eq_div_pow, h]
    omega
  · rw [BitVec.getLsbD, h, Nat.testBit_zero]
    simp

theorem spareIndex_odd {i : BitVec 8} {k : SlotNo} (h : i.toNat = k.val * 2 + 1) :
    (i.extractLsb' 1 4).toFin = k ∧ i.getLsbD 0 = true := by
  have hk := k.isLt
  refine ⟨Fin.ext ?_, ?_⟩
  · show (i.extractLsb' 1 4).toNat = k.val
    rw [BitVec.extractLsb'_toNat, Nat.shiftRight_eq_div_pow, h]
    omega
  · rw [BitVec.getLsbD, h, Nat.testBit_zero]
    simp

/-- The address served, where no two valid entries name one slot. -/
theorem addressServed_of_mem {l : List (Option MapEntry)} {e : MapEntry}
    (hnd : ((l.filterMap id).map MapEntry.slot).Nodup) (he : e ∈ l.filterMap id) :
    addressServed l e.slot = some e.address := by
  induction l with
  | nil => simp at he
  | cons x rest ih =>
    cases x with
    | none => exact ih hnd he
    | some y =>
      simp only [List.filterMap_cons, id, List.map_cons, List.nodup_cons, List.mem_cons] at hnd he
      obtain ⟨hnot, hnd⟩ := hnd
      rcases he with rfl | he
      · simp [addressServed]
      · have hne : y.slot ≠ e.slot := fun h => hnot (h ▸ List.mem_map_of_mem he)
        rw [addressServed, if_neg hne]
        exact ih hnd he

/-- An odd index of a MAPPED slot shows the address that its entry serves (R110). -/
theorem Sparing.servedWord_of_mem {sp : Sparing} (hwf : sp.wf) {e : MapEntry} (he : e ∈ sp.entries) :
    (sp.servedWord e.slot).toNat = e.address.toNat := by
  obtain ⟨-, hslots, hmapped, -⟩ := hwf
  have hm : sp.slots[e.slot].state = .mapped :=
    (hmapped e.slot).2 (List.mem_map_of_mem (f := MapEntry.slot) he)
  rw [Sparing.servedWord, if_pos hm, addressServed_of_mem hslots he]
  exact BitVec.toNat_setWidth_of_le (by decide)

/-! ### WIN_DATA -/

theorem State.winData_spare_even {k : SlotNo} (hw : s.host.window = .spareMap)
    (h : s.host.index.toNat = k.val * 2) : s.winData = s.sparing.slots[k].stateWord := by
  obtain ⟨hk, hbit⟩ := spareIndex_even h
  simp only [State.winData, hw, Sparing.readField, hk, hbit]
  rfl

theorem State.winData_spare_odd {k : SlotNo} (hw : s.host.window = .spareMap)
    (h : s.host.index.toNat = k.val * 2 + 1) : s.winData = s.sparing.servedWord k := by
  obtain ⟨hk, hbit⟩ := spareIndex_odd h
  simp only [State.winData, hw, Sparing.readField, hk, hbit, if_true]

/-- Settles O35, window by window. -/
theorem windowsShowTheirRecords : Obligations.WindowsShowTheirRecords := by
  intro s w i
  have hw : w = s.winData := rfl
  refine ⟨fun ch k hwin hk hi => ?_, fun hwin hr => ?_, fun r rest hwin hr hi => ?_,
    fun hwin hr => ?_, fun r rest hwin hr hi => ?_,
    fun k hwin => ⟨fun hi => ?_, fun hi hne => ?_, fun hi hwf e he hk => ?_⟩⟩
  · obtain ⟨hch, hfield⟩ := index_fields hk hi
    have hread : w = s.channels[ch].readField k := by
      simp only [hw, State.winData, hwin, hch, hfield]
    rw [hread]
    exact Context.readField_toNat _ k hk
  · simp only [hw, State.winData, hwin, hr]
  · have hread : w = r.readField i := by simp only [hw, State.winData, hwin, hr, i]
    rw [hread]
    exact r.readField_toNat i hi
  · simp only [hw, State.winData, hwin, hr]
  · have hread : w = r.readField i := by simp only [hw, State.winData, hwin, hr, i]
    rw [hread]
    exact r.readField_toNat i hi
  · rw [hw, State.winData_spare_even hwin hi]
    exact SpareSlot.stateWord_toNat _
  · rw [hw, State.winData_spare_odd hwin hi, Sparing.servedWord, if_neg hne]
  · subst hk
    rw [hw, State.winData_spare_odd hwin hi]
    exact Sparing.servedWord_of_mem hwf he

end

end Sys2Proof.Machine

namespace Sys2Proof.Machine

/-! PROOFS. The register writes with fields of their own (10.1, 10.3, 9.1): the checks of the CONTEXT
window, the plain registers, and PATROL_CTRL. -/

section
variable {s t v u f : State} {o : Option Instr}

/-! ### The checks of one field (R26 to R28, R181) -/

section
variable {c : Context} {n : BankName} {d : Data}

/-- A bank that is LOCKED: active and live, or inactive and armed (R27). -/
def Context.Locked (c : Context) (n : BankName) : Prop :=
  n = c.activeBank ∧ c.state ≠ .disabled ∨ n ≠ c.activeBank ∧ c.armed = true

theorem Context.locked_iff : c.locked n = true ↔ c.Locked n := by
  simp [Context.locked, Context.live, Context.Locked]

/-- The descriptor that a BASE write asks for (R181). -/
def Bank.withBase (b : Bank) (d : Data) : Bank := { b with base := d.extractLsb' 0 13 }

/-- The descriptor that an ORDER and MODE write asks for (R181). -/
def Bank.withOrder (b : Bank) (d : Data) : Bank :=
  { b with order := d.extractLsb' 0 4, mode := if d.getLsbD 8 then .linear else .nearest }

theorem Bank.withBase_fits {b : Bank} : (b.withBase d).fits = true ↔
    d.toNat % 2 ^ 13 + 2 ^ b.order.toNat ≤ 8191 := by
  rw [Bank.fits_iff, Bank.withBase, BitVec.extractLsb'_toNat, Nat.shiftRight_zero]

/-- An ORDER in 4–10 whose bank keeps inside the address space (R27). -/
theorem Bank.withOrder_valid {b : Bank} :
    (orderValid (b.withOrder d).order && (b.withOrder d).fits) = true ↔
      (4 ≤ d.toNat % 16 ∧ d.toNat % 16 ≤ 10) ∧ b.base.toNat + 2 ^ (d.toNat % 16) ≤ 8191 := by
  have horder : (b.withOrder d).order.toNat = d.toNat % 16 := by
    rw [Bank.withOrder, BitVec.extractLsb'_toNat, Nat.shiftRight_zero]
  rw [Bool.and_eq_true, Bank.fits_iff, orderValid, decide_eq_true_iff, horder]
  rfl

/-- A BASE write: LOCKED first, then the range (R27). -/
theorem Context.writeBase_spec (c : Context) (n : BankName) (d : Data) :
    (c.Locked n → c.writeBase n d = (.locked, c)) ∧
    (¬c.Locked n → d.toNat % 2 ^ 13 + 2 ^ (c.bank n).order.toNat ≤ 8191 →
      c.writeBase n d = (.ok, c.setBank n ((c.bank n).withBase d))) ∧
    (¬c.Locked n → 8191 < d.toNat % 2 ^ 13 + 2 ^ (c.bank n).order.toNat →
      c.writeBase n d = (.badValue, c)) := by
  have heq : c.writeBase n d = if c.locked n = true then (.locked, c)
      else if ((c.bank n).withBase d).fits = true then (.ok, c.setBank n ((c.bank n).withBase d))
      else (.badValue, c) := rfl
  rw [heq]
  refine ⟨fun h => if_pos (Context.locked_iff.2 h), fun h hf => ?_, fun h hf => ?_⟩
  · rw [if_neg (mt Context.locked_iff.1 h), if_pos (Bank.withBase_fits.2 hf)]
  · rw [if_neg (mt Context.locked_iff.1 h), if_neg (mt Bank.withBase_fits.1 (Nat.not_le.2 hf))]

/-- An ORDER and MODE write: LOCKED first, then ORDER and the range (R27). -/
theorem Context.writeOrder_spec (c : Context) (n : BankName) (d : Data) :
    (c.Locked n → c.writeOrder n d = (.locked, c)) ∧
    (¬c.Locked n → 4 ≤ d.toNat % 16 → d.toNat % 16 ≤ 10 →
      (c.bank n).base.toNat + 2 ^ (d.toNat % 16) ≤ 8191 →
      c.writeOrder n d = (.ok, c.setBank n ((c.bank n).withOrder d))) ∧
    (¬c.Locked n → d.toNat % 16 < 4 ∨ 10 < d.toNat % 16 ∨
        8191 < (c.bank n).base.toNat + 2 ^ (d.toNat % 16) →
      c.writeOrder n d = (.badValue, c)) := by
  have heq : c.writeOrder n d = if c.locked n = true then (.locked, c)
      else if (orderValid ((c.bank n).withOrder d).order && ((c.bank n).withOrder d).fits) = true then
        (.ok, c.setBank n ((c.bank n).withOrder d))
      else (.badValue, c) := rfl
  rw [heq]
  refine ⟨fun h => if_pos (Context.locked_iff.2 h), fun h hlo hhi hf => ?_, fun h hbad => ?_⟩
  · rw [if_neg (mt Context.locked_iff.1 h), if_pos (Bank.withOrder_valid.2 ⟨⟨hlo, hhi⟩, hf⟩)]
  · rw [if_neg (mt Context.locked_iff.1 h), if_neg]
    intro hvalid
    obtain ⟨⟨hlo, hhi⟩, hf⟩ := Bank.withOrder_valid.1 hvalid
    omega

theorem Context.writeField_clampLo (c : Context) (d : Data) : c.writeField 6 d =
    if c.clampHi.toInt < d.toInt then (.badValue, c) else (.ok, { c with clampLo := d }) := by
  simp only [Context.writeField, BitVec.sle_iff_toInt_le]
  split
  · next h => rw [if_neg (not_lt.2 h)]
  · next h => rw [if_pos (not_le.1 h)]

theorem Context.writeField_clampHi (c : Context) (d : Data) : c.writeField 7 d =
    if d.toInt < c.clampLo.toInt then (.badValue, c) else (.ok, { c with clampHi := d }) := by
  simp only [Context.writeField, BitVec.sle_iff_toInt_le]
  split
  · next h => rw [if_neg (not_lt.2 h)]
  · next h => rw [if_pos (not_le.1 h)]

/-- The four codes of a POLICY write (R28). -/
theorem Context.writeField_policy (c : Context) (d : Data) :
    (d.toNat % 4 = 0 → c.writeField 8 d = (.ok, { c with policy := .holdLast })) ∧
    (d.toNat % 4 = 1 → c.writeField 8 d = (.ok, { c with policy := .substitute })) ∧
    (d.toNat % 4 = 2 → c.writeField 8 d = (.ok, { c with policy := .reject })) ∧
    (d.toNat % 4 = 3 → c.writeField 8 d = (.badValue, c)) := by
  have hcode : ∀ m, d.toNat % 4 = m → d.extractLsb' 0 2 = BitVec.ofNat 2 m := by
    rintro m rfl
    apply BitVec.eq_of_toNat_eq
    rw [BitVec.extractLsb'_toNat, BitVec.toNat_ofNat, Nat.shiftRight_zero]
    exact (Nat.mod_mod _ _).symm
  have hfield : ∀ m, d.toNat % 4 = m → c.writeField 8 d =
      match decodePolicy (BitVec.ofNat 2 m) with
      | some q => (.ok, { c with policy := q })
      | none => (.badValue, c) := by
    intro m hm
    rw [← hcode m hm]
    rfl
  exact ⟨hfield 0, hfield 1, hfield 2, hfield 3⟩

/-- The fields that no write changes (R28). -/
theorem Context.writeField_readOnly (c : Context) (d : Data) (k : Nat) (hk : k < 16)
    (h : k = 0 ∨ 11 ≤ k) : c.writeField k d = (.readOnly, c) := by
  rcases h with rfl | h
  · rfl
  · interval_cases k <;> rfl

end

/-! ### WIN_DATA writes (R170) -/

/-- A write in the CONTEXT window, by the outcome of its checks. -/
theorem exec_winDataWrite {d : Data} {ch : Chan} {k : Nat} {x : WinOutcome} {c : Context}
    (h : s.takesHostAccess) (hw : s.host.window = .context) (hk : k < 16)
    (hi : s.host.index.toNat = ch.val * 16 + k) (hr : s.channels[ch].writeField k d = (x, c)) :
    exec (.winDataWrite d) s = .next { s.withChan ch c with host := { s.host with
      winStatus := x
      index := BitVec.ofNat 8 ((s.host.index.toNat + 1) % s.host.window.size) } } := by
  obtain ⟨hch, hfield⟩ := index_fields hk hi
  refine (State.whenBusFree_of_takes h (·.writeWinData d)).trans ?_
  simp only [State.writeWinData, hw, State.writeContext, hch, hfield, hr]
  rw [← hw]
  rfl

theorem exec_winDataWrite_readOnly {d : Data} (h : s.takesHostAccess)
    (hw : s.host.window ≠ .context) :
    exec (.winDataWrite d) s = .next { s with host := { s.host with
      winStatus := .readOnly
      index := BitVec.ofNat 8 ((s.host.index.toNat + 1) % s.host.window.size) } } := by
  refine (State.whenBusFree_of_takes h (·.writeWinData d)).trans ?_
  rw [State.writeWinData]
  split
  · next hc => exact absurd hc hw
  · rfl

/-- Settles O36, field by field. -/
theorem contextWritesAreCheckedInOrder : Obligations.ContextWritesAreCheckedInOrder := by
  intro s d ch k h _ hk next done c live locked base order mode
  refine ⟨exec_winDataWrite_readOnly h, fun hw hi => ?_⟩
  have hdone : ∀ {x c'}, c.writeField k d = (x, c') → done x c' := exec_winDataWrite h hw hk hi
  refine ⟨fun hf => ?_, ?_, ?_, ?_, ?_, ?_, ?_, ?_, ?_, ?_, ?_⟩
  · exact hdone (c.writeField_readOnly d k hk hf)
  · rintro rfl
    obtain ⟨hl, hok, hbad⟩ := c.writeBase_spec .a d
    exact ⟨fun hx => hdone (hl hx), fun hx hb => hdone (hok hx hb), fun hx hb => hdone (hbad hx hb)⟩
  · rintro rfl
    obtain ⟨hl, hok, hbad⟩ := c.writeOrder_spec .a d
    exact ⟨fun hx => hdone (hl hx), fun hx hlo hhi hb => hdone (hok hx hlo hhi hb),
      fun hx hb => hdone (hbad hx hb)⟩
  · rintro rfl
    obtain ⟨hl, hok, hbad⟩ := c.writeBase_spec .b d
    exact ⟨fun hx => hdone (hl hx), fun hx hb => hdone (hok hx hb), fun hx hb => hdone (hbad hx hb)⟩
  · rintro rfl
    obtain ⟨hl, hok, hbad⟩ := c.writeOrder_spec .b d
    exact ⟨fun hx => hdone (hl hx), fun hx hlo hhi hb => hdone (hok hx hlo hhi hb),
      fun hx hb => hdone (hbad hx hb)⟩
  · rintro rfl
    exact hdone rfl
  · rintro rfl
    have hfield := c.writeField_clampLo d
    split
    · next hlt => exact hdone (hfield.trans (if_pos hlt))
    · next hlt => exact hdone (hfield.trans (if_neg hlt))
  · rintro rfl
    have hfield := c.writeField_clampHi d
    split
    · next hlt => exact hdone (hfield.trans (if_pos hlt))
    · next hlt => exact hdone (hfield.trans (if_neg hlt))
  · rintro rfl
    obtain ⟨h0, h1, h2, h3⟩ := c.writeField_policy d
    exact ⟨fun hm => hdone (h0 hm), fun hm => hdone (h1 hm), fun hm => hdone (h2 hm),
      fun hm => hdone (h3 hm)⟩
  · rintro rfl
    exact hdone rfl
  · rintro rfl
    exact hdone rfl

/-! ### The plain registers (R50, R156, R165, R173) -/

theorem exec_registerWrite (h : s.takesHostAccess) (sel : BitVec 5) (d : Data) :
    exec (.registerWrite sel d) s = .next (s.writeRegister sel d) :=
  State.whenBusFree_of_takes h (·.writeRegister sel d)

/-- The selects that are read-only or empty (Table 11-1). -/
theorem select_without_write (sel : BitVec 5) : sel ∈ ownRowSelects ∨
    sel ∈ ([0x15, 0x16, 0x17] : List (BitVec 5)) ∨
    sel ∈ ([0x00, 0x01, 0x05, 0x09, 0x0A, 0x0D, 0x11, 0x14, 0x18, 0x19, 0x1A, 0x1B, 0x1C, 0x1D, 0x1E,
      0x1F] : List (BitVec 5)) := by
  revert sel
  decide

/-- A write of a register that is read-only or empty is ignored (R156). -/
theorem State.writeRegister_of_ignored {sel : BitVec 5} (d : Data) (h : sel ∉ ownRowSelects)
    (harg : sel ∉ ([0x15, 0x16, 0x17] : List (BitVec 5))) : s.writeRegister sel d = s := by
  have hmem := ((select_without_write sel).resolve_left h).resolve_left harg
  fin_cases hmem <;> rfl

theorem exec_timebaseWrite (h : s.takesHostAccess) (d : Data) : exec (.timebaseWrite d) s =
    .next (if 8 ≤ d.toNat % 128 ∧ d.toNat % 128 ≤ 100 then
      { s with host := { s.host with timebase := d.extractLsb' 0 7 } } else s) := by
  have hlow : (d.extractLsb' 0 7).toNat = d.toNat % 128 := BitVec.extractLsb'_toNat 0 7 d
  refine (State.whenBusFree_of_takes h (·.writeTimebase d)).trans ?_
  rw [← hlow]
  rfl

/-- Settles O37, register by register; the writes with rows of their own are theirs by definition. -/
theorem plainRegisterWritesSetTheirField : Obligations.PlainRegisterWritesSetTheirField := by
  refine ⟨fun s d sel h => ⟨fun hlo hhi => ?_, fun hout => ?_, ?_, ?_, ?_, ?_, fun hwf harg => ?_,
    fun e he => ?_⟩, fun s d h => State.whenBusFree_of_takes h (·.clearPortStatus d)⟩
  · rw [exec_timebaseWrite h, if_pos ⟨hlo, hhi⟩]
  · rw [exec_timebaseWrite h, if_neg (by omega)]
  · exact State.whenBusFree_of_takes h (·.writeLinkCtrl d)
  · exact exec_registerWrite h 0x15 d
  · exact exec_registerWrite h 0x16 d
  · exact exec_registerWrite h 0x17 d
  · rw [exec_registerWrite h, State.writeRegister_of_ignored d (of_decide_eq_true hwf) harg]
  · fin_cases he <;> exact ⟨rfl, rfl⟩

/-! ### PATROL_CTRL (R14, R141, R144, R154) -/

theorem Patrol.writeCtrl_eq (p : Patrol) (d : Data) : p.writeCtrl d = { p with
    enable := d.getLsbD 0, retireLimit := d.extractLsb' 4 4
    share :=
      if 1 ≤ d.toNat / 256 % 32 ∧ d.toNat / 256 % 32 ≤ 16 then BitVec.ofNat 5 (d.toNat / 256 % 32)
      else p.share } := by
  have hshare : (d.extractLsb' 8 5).toNat = d.toNat / 256 % 32 := by
    rw [BitVec.extractLsb'_toNat, Nat.shiftRight_eq_div_pow]
  rw [← hshare, BitVec.ofNat_toNat]
  simp [Patrol.writeCtrl]

theorem State.actOnEnable_of_step (h : s.patrol.phase = .claiming ∨ s.patrol.phase = .checking ∨
    s.patrol.phase = .repairing) : s.actOnEnable = s := by
  cases hd : s.store.device with
  | startUp => exact State.actOnEnable_of_startUp hd
  | running => rcases h with h | h | h <;> simp only [State.actOnEnable, hd, h]

theorem State.actOnEnable_of_waiting (hd : s.store.device = .running)
    (h : s.patrol.phase = .pacing ∨ s.patrol.phase = .yielding) :
    s.actOnEnable = if s.patrol.enable = true then s else s.resumePatrol := by
  rcases h with h | h <;> simp only [State.actOnEnable, hd, h]

theorem State.actOnEnable_of_off (hd : s.store.device = .running) (h : s.patrol.phase = .off) :
    s.actOnEnable = s.resumePatrol := by
  simp only [State.actOnEnable, hd, h]

theorem Patrol.resume_of_disabled {p : Patrol} (h : p.enable = false) (busy : Bool) :
    p.resume busy = { p with phase := .off, timer := none } := by
  simp [Patrol.resume, h]

theorem Patrol.resume_of_busy {p : Patrol} (h : p.enable = true) :
    p.resume true = { p with phase := .yielding, timer := none } := by
  simp [Patrol.resume, h]

/-- Settles O38, by the device state and the patrol's state. -/
theorem patrolControlStartsAndStopsThePatrol : Obligations.PatrolControlStartsAndStopsThePatrol := by
  intro s d h share p done
  let u := s.setPatrol p
  have hexec : exec (.patrolCtrlWrite d) s = .next u.actOnEnable.settle := by
    have hu : u = s.setPatrol (s.patrol.writeCtrl d) := by rw [Patrol.writeCtrl_eq]
    rw [hu]
    exact State.whenBusFree_of_takes h (·.writePatrolCtrl d)
  have hkept : u.actOnEnable = u → done p := fun hu => by
    rw [hu] at hexec
    exact hexec
  have hgoes : ∀ {q}, u.actOnEnable = u.resumePatrol → p.resume s.maint.busy = q → done q :=
    fun hu hq => by
      rw [hu] at hexec
      exact hq ▸ hexec
  refine ⟨fun hidle => hkept ?_, fun hd => ⟨fun hph => ?_, fun hph => ?_⟩⟩
  · exact hidle.elim (State.actOnEnable_of_startUp (s := u)) (State.actOnEnable_of_step (s := u))
  · have hact := State.actOnEnable_of_waiting (s := u) hd hph
    exact ⟨fun he => hkept (hact.trans (if_pos he)),
      fun he => hgoes (hact.trans (if_neg (ne_true_of_eq_false he))) (Patrol.resume_of_disabled he _)⟩
  · have hact := State.actOnEnable_of_off (s := u) hd hph
    refine ⟨fun he => hgoes hact (Patrol.resume_of_disabled he _), fun he => ⟨fun hb => ?_,
      fun hb hi => ?_, fun hb hi => ?_⟩⟩
    · exact hgoes hact (by rw [hb, Patrol.resume_of_busy he])
    · exact hgoes hact (by rw [hb, Patrol.resume_idle, if_neg (ne_false_of_eq_true he), if_pos hi])
    · exact hgoes hact (by
        rw [hb, Patrol.resume_idle, if_neg (ne_false_of_eq_true he), if_neg (not_not.2 hi)]
        rfl)

end

end Sys2Proof.Machine

namespace Sys2Proof.Machine

/-! PROOFS. The commands (10.4): the word of COMMAND, the channel commands (3.4), and SOFT_RESET (10.7). -/

section
variable {s t v u f : State} {o : Option Instr}

/-! ### The word of COMMAND (R171, R172) -/

/-- The thirteen commands, in the order of Table 10-6. -/
def hostCommands : List HostCommand :=
  [.enable, .disable, .resume, .arm, .disarm, .fill, .verify, .retire, .abortJobs, .popError,
    .popCompletion, .clearLoss, .softReset]

/-- The code that names a command (Table 10-6). -/
def commandNumber : HostCommand → Nat
  | .enable => 0x01
  | .disable => 0x02
  | .resume => 0x03
  | .arm => 0x04
  | .disarm => 0x05
  | .fill => 0x10
  | .verify => 0x11
  | .retire => 0x12
  | .abortJobs => 0x13
  | .popError => 0x20
  | .popCompletion => 0x21
  | .clearLoss => 0x22
  | .softReset => 0x30

theorem exec_row (k : HostCommand) (low : BitVec 8) (s : State) :
    exec (k.row low) s = s.command (·.runCommand low k) := by
  cases k <;> rfl

theorem exec_unknownCommand (w : Data) (s : State) :
    exec (.unknownCommand w) s = s.command (·.takeCommandWord w) := rfl

theorem exec_registerWrite_command (w : Data) (s : State) :
    exec (.registerWrite 4 w) s = s.command (·.takeCommandWord w) := rfl

/-- In START_UP every code is refused with STARTING. -/
theorem exec_command_of_startUp (h : s.takesHostAccess) (hd : s.store.device = .startUp)
    (low : BitVec 8) (w : Data) :
    ∀ c ∈ hostCommands.map (HostCommand.row low) ++ [.unknownCommand w],
      exec c s = .next (s.showing .starting 0) := by
  intro c hc
  rcases List.mem_append.1 hc with hc | hc
  · obtain ⟨k, -, rfl⟩ := List.mem_map.1 hc
    rw [exec_row, State.command_of_startUp h.1 hd, State.answer_eq_showing]
  · rw [List.mem_singleton.1 hc, exec_unknownCommand, State.command_of_startUp h.1 hd,
      State.answer_eq_showing]

theorem commandCode_toNat (w : Data) : (commandCode w).toNat = w.toNat / 256 := by
  have hlt := w.isLt
  rw [commandCode, BitVec.extractLsb'_toNat, Nat.shiftRight_eq_div_pow]
  omega

theorem commandCode_eq (w : Data) : commandCode w = BitVec.ofNat 8 (w.toNat / 256) := by
  rw [← commandCode_toNat, BitVec.ofNat_toNat, BitVec.setWidth_eq]

/-- Every other code names none. -/
theorem commandOfCode_eq_none (code : BitVec 8)
    (h : ∀ k ∈ hostCommands, code.toNat ≠ commandNumber k) : commandOfCode code = none := by
  revert code
  decide

theorem decodeCommand_of_number {w : Data} {k : HostCommand} (h : w.toNat / 256 = commandNumber k) :
    decodeCommand w = k.row (w.extractLsb' 0 8) := by
  rw [decodeCommand, commandCode_eq, h]
  cases k <;> rfl

theorem commandOfCode_of_unknown {w : Data} (h : ∀ k ∈ hostCommands, w.toNat / 256 ≠ commandNumber k) :
    commandOfCode (commandCode w) = none :=
  commandOfCode_eq_none _ fun k hk => by
    rw [commandCode_toNat]
    exact h k hk

/-- COMMAND_RESULT shows the code and the job ID field (R172). -/
theorem State.showing_commandResult (r : ResultCode) (id : BitVec 8) :
    (s.showing r id).commandResult = (id.setWidth 16 <<< 8) ||| (match r with
      | .ok => 0
      | .starting => 1
      | .badState => 2
      | .rangeBusy => 3
      | .noTicket => 4
      | .badArgument => 5
      | .empty => 6
      | .unknown => 7) := by
  unfold State.commandResult
  cases r <;> rfl

/-- Settles O40, by the table of codes. -/
theorem commandsAreRefusedInStartUp : Obligations.CommandsAreRefusedInStartUp := by
  refine ⟨fun s low w h => ⟨fun hd => exec_command_of_startUp h hd low w, ?_⟩,
    fun s r id => State.showing_commandResult r id⟩
  intro low' rows
  have hrows : rows = hostCommands.map (fun k => (commandNumber k, k.row low')) := rfl
  refine ⟨fun e he hw => ?_, fun hne => ?_⟩
  · rw [hrows] at he
    obtain ⟨k, -, rfl⟩ := List.mem_map.1 he
    have hdec : decodeCommand w = k.row low' := decodeCommand_of_number hw
    refine ⟨hdec, ?_, ?_⟩
    · rw [← hdec, exec_registerWrite_command, exec_decodeCommand]
    · rw [← hdec, exec_unknownCommand, exec_decodeCommand]
  · have hnone : commandOfCode (commandCode w) = none :=
      commandOfCode_of_unknown fun k hk => hne _ (hrows ▸ List.mem_map_of_mem hk)
    refine ⟨by rw [decodeCommand, hnone], fun hd => ?_⟩
    rw [exec_unknownCommand, State.command_of_takesCommands ⟨h, hd⟩, State.takeCommandWord, hnone]
    rfl

/-! ### The channel commands (R31 to R36) -/

theorem commandChannel_eq {low : BitVec 8} {ch : Chan} (h : low.toNat % 16 = ch.val) :
    commandChannel low = ch := by
  refine Fin.ext ?_
  show (low.extractLsb' 0 4).toNat = ch.val
  rw [BitVec.extractLsb'_toNat, Nat.shiftRight_zero, ← h]

theorem Job.has_range {j : Job} (h : j.wf) {a : Nat} :
    j.range.has a = true ↔ j.start.toNat ≤ a ∧ a < j.start.toNat + j.count := by
  obtain ⟨hcount, -⟩ := h
  rw [AddrRange.has, decide_eq_true_iff, Job.range]
  dsimp only
  omega

theorem Maint.live_wf {m : Maint} (h : m.jobsWf) {j : Job} (hj : j ∈ m.live) : j.wf := by
  obtain ⟨hqueue, hrun⟩ := h
  rcases Maint.mem_live.1 hj with ⟨k, hk, rfl⟩ | hq
  · exact (hrun k hk).1
  · exact hqueue j hq

/-- The test of a bank against the counting FILL ranges (R36). -/
theorem State.fillOverlaps_iff (h : s.maint.jobsWf) (b : Bank) :
    s.maint.fillOverlaps b.range = true ↔ s.fillMeets b := by
  have hmeets : ∀ j ∈ s.maint.live, j.range.overlaps b.range = true ↔
      ∃ a : Nat, (b.base.toNat ≤ a ∧ a ≤ b.base.toNat + 2 ^ b.order.toNat) ∧
        j.start.toNat ≤ a ∧ a < j.start.toNat + j.count := by
    intro j hj
    have hwf := Maint.live_wf h hj
    have hle : j.range.lo ≤ j.range.hi := by
      obtain ⟨hcount, -⟩ := hwf
      show j.start.toNat ≤ j.start.toNat + j.count - 1
      omega
    simp only [AddrRange.overlaps_iff_exists hle b.range_lo_le_hi, Bank.has_range, Job.has_range hwf]
  simp only [Maint.fillOverlaps, List.any_eq_true, Maint.mem_fillRanges]
  constructor
  · rintro ⟨-, ⟨j, hj, hk, rfl⟩, hov⟩
    exact ⟨j, hj, hk, (hmeets j hj).1 hov⟩
  · rintro ⟨j, hj, hk, hex⟩
    exact ⟨_, ⟨j, hj, hk, rfl⟩, (hmeets j hj).2 hex⟩

theorem Context.inactive_eq (c : Context) : c.inactive = match c.activeBank with
    | .a => c.bankB
    | .b => c.bankA := by
  unfold Context.inactive
  cases c.activeBank <;> rfl

/-- The armed bank of a channel is protected (R44). -/
theorem State.isProtected_of_armed {ch : Chan} {a : Nat} (h : s.channels[ch].armed = true)
    (ha : s.channels[ch].inactive.range.has a = true) : s.isProtected a = true :=
  State.isProtected_iff.2 ⟨_, State.mem_protectedRanges.2 (.inl ⟨_, State.channel_mem ch,
    Context.mem_protectedRanges.2 (.inr ⟨h, rfl⟩)⟩), ha⟩

theorem State.withChan_get (ch : Chan) (c : Context) : (s.withChan ch c).channels[ch] = c :=
  Vector.getElem_set_self ch.isLt

section
variable {low : BitVec 8} {ch : Chan} (h : s.takesCommands) (hc : low.toNat % 16 = ch.val)
include h hc

theorem exec_enable : exec (.enable low) s = .next (s.enableChan ch) := by
  rw [← commandChannel_eq hc]
  exact State.command_of_takesCommands h (·.enableChan (commandChannel low))

theorem exec_disable : exec (.disable low) s = .next (s.disableChan ch) := by
  rw [← commandChannel_eq hc]
  exact State.command_of_takesCommands h (·.disableChan (commandChannel low))

theorem exec_resume : exec (.resume low) s = .next (s.resumeChan ch) := by
  rw [← commandChannel_eq hc]
  exact State.command_of_takesCommands h (·.resumeChan (commandChannel low))

theorem exec_arm : exec (.arm low) s = .next (s.armChan ch) := by
  rw [← commandChannel_eq hc]
  exact State.command_of_takesCommands h (·.armChan (commandChannel low))

theorem exec_disarm : exec (.disarm low) s = .next (s.disarmChan ch) := by
  rw [← commandChannel_eq hc]
  exact State.command_of_takesCommands h (·.disarmChan (commandChannel low))

end

/-- Settles O41, by the position of the channel and the FILL ranges. -/
theorem channelCommandsCheckStateThenFillRanges :
    Obligations.ChannelCommandsCheckStateThenFillRanges := by
  refine ⟨fun s low ch h hj hc => ?_, fun s low ch h hc => ?_⟩
  · intro c active inactive covers
    have hactive : active = c.active := (Context.active_eq c).symm
    have hinactive : inactive = c.inactive := (Context.inactive_eq c).symm
    rw [hactive, hinactive, exec_enable h hc, exec_arm h hc, ← State.fillOverlaps_iff hj,
      ← State.fillOverlaps_iff hj]
    refine ⟨fun hs => ?_, fun hs hf => ?_, fun hs hf => ⟨?_, fun a hlo hhi => ?_⟩, fun ha => ?_,
      fun ha hf => ?_, fun ha hf => ⟨?_, fun a hlo hhi => ?_⟩⟩
    · exact congrArg _ (if_pos hs)
    · exact congrArg _ ((if_neg (not_not.2 hs)).trans (if_pos hf))
    · exact congrArg _ ((if_neg (not_not.2 hs)).trans (if_neg hf))
    · refine State.isProtected_of_active (ch := ch) ?_ ?_
      · show (s.withChan ch { c with state := .active, uncorrCount := 0 }).channels[ch].state ≠ _
        rw [State.withChan_get]
        exact nofun
      · show
          (s.withChan ch { c with state := .active, uncorrCount := 0 }).channels[ch].active.range.has a = _
        rw [State.withChan_get, Bank.has_range]
        exact ⟨hlo, hhi⟩
    · exact congrArg _ (if_pos ha)
    · exact congrArg _ ((if_neg (ne_true_of_eq_false ha)).trans (if_pos hf))
    · exact congrArg _ ((if_neg (ne_true_of_eq_false ha)).trans (if_neg hf))
    · refine State.isProtected_of_armed (ch := ch) ?_ ?_
      · show (s.withChan ch { c with armed := true }).channels[ch].armed = _
        rw [State.withChan_get]
      · show (s.withChan ch { c with armed := true }).channels[ch].inactive.range.has a = _
        rw [State.withChan_get, Bank.has_range]
        exact ⟨hlo, hhi⟩
  · intro c
    rw [exec_disable h hc, exec_resume h hc, exec_disarm h hc]
    exact ⟨rfl, fun hs => congrArg _ (if_pos hs), fun hs => congrArg _ (if_neg hs),
      fun ha => congrArg _ (if_pos ha), fun ha => congrArg _ (if_neg (ne_true_of_eq_false ha))⟩

/-! ### SOFT_RESET (10.7) -/

theorem Access.afterSoftReset_eq : Access.afterSoftReset = fun a => match a with
    | .read t r _ => .read t r .dropped
    | .write .posted k i => .write .posted k i
    | .write t k _ => .write t k .dropped := by
  funext a
  rcases a with ⟨t, r, i⟩ | ⟨t, k, i⟩
  · rfl
  · cases t <;> rfl

/-- A granted lookup read is drained: its slot's, or the one that drains already (R86). -/
theorem State.dropEngine_of_read (ha : s.engineAgrees) {r : ReadResult} {i : Interest}
    (hr : s.store.access = some (.read .lookup r i)) : ∃ ch b x, s.dropEngine = .draining ch b x ∧
      ((∃ n, readingSlot s.link.queue = some (ch, n) ∧ n.bank = b) ∨ s.engine = .draining ch b x) := by
  obtain ⟨hslot, -, hcur, hdrained⟩ := State.engineAgrees_iff.1 ha
  have hof : s.accessOf .lookup = true := State.accessOf_iff.2 ⟨_, hr, rfl⟩
  by_cases he : s.engine.evaluating = true
  · obtain ⟨p, hw⟩ := Engine.exists_worksOn he
    obtain ⟨ch, n, hs⟩ := State.exists_readingSlot hslot he
    refine ⟨ch, n.bank, p.anyFaulty, ?_, .inl ⟨n, hs, rfl⟩⟩
    rw [State.dropEngine_of_works hw hs, if_pos hof]
  · have hd : s.engine ≠ .idle := by
      refine (hdrained.1 ⟨_, hr, ?_⟩).1
      by_contra hw
      have hi : i = .wanted := by simpa [Access.isDrainedLookup] using hw
      exact he (hcur _ hr (by rw [hi]; rfl))
    rcases hen : s.engine with _ | p | ⟨p, x⟩ | ⟨ch, b, x⟩
    · exact absurd hen hd
    · exact absurd (by rw [hen]; rfl) he
    · exact absurd (by rw [hen]; rfl) he
    · exact ⟨ch, b, x, by simp only [State.dropEngine, hen], .inr rfl⟩

/-- With no lookup read granted the engine's slot is dropped (R86). -/
theorem State.dropEngine_of_no_read (ha : s.engineAgrees) (h : s.noLookupRead) :
    s.dropEngine = .idle := by
  obtain ⟨hslot, -, hread⟩ := State.engineAgrees_iff.1 ha
  have hof : s.accessOf .lookup = false := Bool.eq_false_iff.2 fun hof => by
    obtain ⟨a, hsome, hcl⟩ := State.accessOf_iff.1 hof
    exact h a hsome hcl
  rcases (State.readAgrees_iff_of_no_read h).1 hread with he | he
  · simp only [State.dropEngine, he]
  · obtain ⟨p, hw⟩ := Engine.exists_worksOn he
    obtain ⟨ch, n, hs⟩ := State.exists_readingSlot hslot he
    rw [State.dropEngine_of_works hw hs, if_neg (by simp [hof])]

/-- Settles O45: the reset is one record, and the engine's state follows the lookup read granted. -/
theorem softResetKeepsTheStore : Obligations.SoftResetKeepsTheStore := by
  intro s low h ha
  refine ⟨s.dropEngine, ?_, fun ⟨r, i, hr⟩ => State.dropEngine_of_read ha hr, fun hno =>
    State.dropEngine_of_no_read ha fun a hsome hcl => ?_⟩
  · refine (State.command_of_takesCommands h (·.softReset.settle)).trans ?_
    rw [State.softReset, Access.afterSoftReset_eq]
    rfl
  · obtain ⟨r, i, rfl⟩ := Access.lookup_cases hcl
    exact hno r i hsome

end

end Sys2Proof.Machine

namespace Sys2Proof.Machine

/-! PROOFS. Maintenance jobs (chapter 8): their starts and ends (8.3), the words of FILL and VERIFY, and
ABORT_JOBS (8.5). -/

section
variable {s t v u f : State} {o : Option Instr}

/-! ### Starts and ends (R127, R131, R146) -/

theorem Maint.busy_iff {m : Maint} : m.busy = true ↔ m.run ≠ none ∨ m.queue ≠ [] := by
  rw [← Bool.not_eq_false, Maint.not_busy_iff, not_and_or]

/-- Where the patrol goes with no step in progress, by the registers and the jobs (R144, R153). -/
theorem Patrol.resume_eq (p : Patrol) (m : Maint) : p.resume m.busy =
    if p.enable = false then { p with phase := .off, timer := none }
    else if m.run ≠ none ∨ m.queue ≠ [] then { p with phase := .yielding, timer := none }
    else if p.interval = 0 then p.startStep
    else { p with phase := .pacing, timer := some 0 } := by
  simp only [← Maint.busy_iff, Patrol.resume, Bool.not_eq_true']

theorem State.leaveYielding_of_idle (hr : s.maint.run = none) (hq : s.maint.queue = [])
    (hp : s.patrol.phase = .yielding) : s.leaveYielding = { s with patrol :=
      if s.patrol.enable = false then { s.patrol with phase := .off, timer := none }
      else if s.patrol.interval = 0 then s.patrol.startStep
      else { s.patrol with phase := .pacing, timer := some 0 } } := by
  rw [State.leaveYielding_eq, if_pos ⟨Maint.not_busy_iff.2 ⟨hr, hq⟩, hp⟩, Patrol.resume_eq,
    if_neg (not_or.2 ⟨not_not.2 hr, not_not.2 hq⟩)]

theorem State.leaveYielding_of_not
    (h : ¬(s.maint.run = none ∧ s.maint.queue = [] ∧ s.patrol.phase = .yielding)) :
    s.leaveYielding = s := by
  rw [State.leaveYielding_eq, if_neg]
  rintro ⟨hb, hp⟩
  obtain ⟨hr, hq⟩ := Maint.not_busy_iff.1 hb
  exact h ⟨hr, hq, hp⟩

theorem State.leaveYielding_of_running {j : RunningJob} (h : s.maint.run = some j) :
    s.leaveYielding = s :=
  State.leaveYielding_of_not fun ⟨hr, _⟩ => nomatch hr.symm.trans h

/-- What holds the queue's head back, or its absence: nothing starts (R127). -/
theorem State.startJob_of_held (h : s.maint.run ≠ none ∨ s.patrol.step ≠ none ∨ s.maint.queue = []) :
    s.startJob = s := by
  rcases h with hr | hs | hq
  · obtain ⟨j, hj⟩ := Option.ne_none_iff_exists'.1 hr
    exact State.startJob_of_running hj
  · obtain ⟨st, hst⟩ := Option.ne_none_iff_exists'.1 hs
    exact State.startJob_of_step hst
  · exact State.startJob_of_empty hq

/-- Settles O46: the start by what holds the head back, the end by whether engine busy clears. -/
theorem jobsStartAndEndOneAtATime : Obligations.JobsStartAndEndOneAtATime :=
  ⟨fun _ => ⟨fun _ _ hr hs hq => State.startJob_of_idle hr hs hq, State.startJob_of_held⟩,
    fun _ _ _ _ => ⟨fun ⟨hr, hq, hp⟩ => State.leaveYielding_of_idle hr hq hp,
      State.leaveYielding_of_not⟩⟩

/-! ### FILL and VERIFY words (R128, R129) -/

theorem ReadOutcome.uncorrCount_eq (x : ReadOutcome) :
    x.uncorrCount = if x = .uncorrectable ∨ x = .poisoned then 1 else 0 := by
  cases x <;> rfl

/-- A VERIFY job's counters after one read, each by the outcomes it counts. -/
theorem RunningJob.countRead_eq (j : RunningJob) (x : ReadOutcome) : j.countRead x = { j with
    wordsDone := j.wordsDone + 1
    correctedFound := j.correctedFound + if x = .corrected then 1 else 0
    uncorrFound := j.uncorrFound + if x = .uncorrectable ∨ x = .poisoned then 1 else 0 } := by
  rw [RunningJob.countRead, ReadOutcome.uncorrCount_eq]
  rfl

theorem exec_fillWordCompletion {key : Option Nat} {j : RunningJob}
    (h : s.store.access = some (.write .fill key .wanted)) (hr : s.maint.run = some j) :
    exec .fillWordCompletion s =
      .next (s.storeFreed.afterWord { j with wordsDone := j.wordsDone + 1 }) := by
  show execFillWordCompletion s = _
  simp only [execFillWordCompletion, State.event_of_noGrantOwed (State.noGrantOwed_of_access h), h, hr]
  rfl

theorem exec_fillWordCompletion_dropped {key : Option Nat}
    (h : s.store.access = some (.write .fill key .dropped)) :
    exec .fillWordCompletion s = .next s.storeFreed.settle := by
  show execFillWordCompletion s = _
  simp only [execFillWordCompletion, State.event_of_noGrantOwed (State.noGrantOwed_of_access h), h]
  rfl

theorem exec_verifyReadCompletion {r : ReadResult} {j : RunningJob}
    (h : s.store.access = some (.read .verify r .wanted)) (hr : s.maint.run = some j) :
    exec .verifyReadCompletion s =
      .next ((s.storeFreed.fileRead r .job none).afterWord (j.countRead r.outcome)) := by
  show execVerifyReadCompletion s = _
  simp only [execVerifyReadCompletion, State.event_of_noGrantOwed (State.noGrantOwed_of_access h), h, hr]
  rfl

theorem exec_verifyReadCompletion_dropped {r : ReadResult}
    (h : s.store.access = some (.read .verify r .dropped)) :
    exec .verifyReadCompletion s = .next s.storeFreed.settle := by
  show execVerifyReadCompletion s = _
  simp only [execVerifyReadCompletion, State.event_of_noGrantOwed (State.noGrantOwed_of_access h), h]
  rfl

/-- Settles O47, by the access that completes. -/
theorem jobWordsAreCountedToTheLast : Obligations.JobWordsAreCountedToTheLast := by
  intro s key r next
  refine ⟨fun j hr => ⟨fun h => exec_fillWordCompletion h hr, fun h => ?_⟩,
    exec_fillWordCompletion_dropped, exec_verifyReadCompletion_dropped⟩
  rw [exec_verifyReadCompletion h hr, RunningJob.countRead_eq]
  rfl

/-! ### ABORT_JOBS (R136) -/

/-- The maintenance access is granted and still awaited: the model's test, and the access it finds. -/
theorem State.maintGranted_iff : s.maintGranted = true ↔
    ∃ a, s.store.access = some a ∧ a.claimant = .maint ∧ a.interest = .wanted := by
  unfold State.maintGranted
  cases s.store.access with
  | none => simp
  | some a => simp

/-- ABORT_JOBS leaves the running job alone when there is none, and when it is a RETIRE (R136). -/
theorem State.abortRunning_of_untouched (h : ∀ j, s.maint.run = some j → j.job.kind = .retire) :
    s.abortRunning = (s.maint.run, []) := by
  unfold State.abortRunning
  cases hr : s.maint.run with
  | none => rfl
  | some j => simp only [h j hr]

theorem State.abortRunning_of_job {j : RunningJob} (hr : s.maint.run = some j)
    (hk : j.job.kind ≠ .retire) : s.abortRunning =
      if s.maintGranted then (some { j with stopping := true }, [])
      else (none, [j.completion .aborted none]) := by
  rcases State.abortRunning_cases (s := s) with ⟨hn, -⟩ | ⟨k, hk', h⟩
  · rw [hr] at hn; cases hn
  · rw [hr] at hk'
    cases hk'
    rcases h with ⟨hret, -⟩ | ⟨-, ⟨hg, he⟩ | ⟨hg, he⟩⟩
    · exact absurd hret hk
    · rw [he, if_pos hg]
    · rw [he, if_neg (by simp [hg])]

/-- ABORT_JOBS with no claim withdrawn: the running job becomes `k`, and the queue is emptied. -/
theorem State.abortCommand_of_kept {k : Option RunningJob} (h : s.abortRunning = (k, []))
    (hk : k = none → s.maint.run = none) : s.abortCommand =
      (({ s with maint := { s.maint with
        queue := [], run := k
        completions := s.maint.completions ++ s.maint.queue.map Job.abortedRecord } }
        : State).leaveYielding.showing .ok 0).settle := by
  have hw : ¬(s.maint.run.isSome = true ∧ k.isNone = true) := fun ⟨hs, hn⟩ => by
    rw [hk (Option.isNone_iff_eq_none.1 hn)] at hs
    cases hs
  simp only [State.abortCommand, h, if_neg hw, List.append_nil]
  rfl

/-- Settles O43, by the running job and its access. -/
theorem abortEndsQueuedAndUngrantedJobs : Obligations.AbortEndsQueuedAndUngrantedJobs := by
  intro s low h aborted queued granted
  have hexec : exec (.abortJobs low) s = .next s.abortCommand :=
    State.command_of_takesCommands h State.abortCommand
  have hg : s.maintGranted = true ↔ granted := State.maintGranted_iff
  refine ⟨fun j hr hk => ?_, fun j hr hk hgr => ?_, fun j hr hk hgr => ?_, fun hr => ?_⟩
  · have ha := State.abortRunning_of_untouched (s := s) fun i hi => by
      rw [hr] at hi; cases hi; exact hk
    rw [hexec, State.abortCommand_of_kept ha id, State.leaveYielding_of_running (j := j)]
    · rfl
    · exact hr
  · have ha := State.abortRunning_of_job hr hk
    rw [if_pos (hg.2 hgr)] at ha
    rw [hexec, State.abortCommand_of_kept ha nofun, State.leaveYielding_of_running rfl]
    rfl
  · have ha := State.abortRunning_of_job hr hk
    rw [if_neg (mt hg.1 hgr)] at ha
    rw [hexec, State.abortCommand, ha, hr, List.append_assoc]
    rfl
  · have ha := State.abortRunning_of_untouched (s := s) fun j hj => by rw [hr] at hj; cases hj
    rw [hexec, State.abortCommand_of_kept ha id]
    rfl

end

end Sys2Proof.Machine

namespace Sys2Proof.Machine

/-! PROOFS. The patrol step (chapter 9) and the retire operation (7.4), completion by completion. -/

section
variable {s t v u f : State} {o : Option Instr}

/-! ### The end of a step (R153) -/

theorem exec_writeBackCompletion {key : Option Nat} {st : PatrolStep}
    (h : s.store.access = some (.write .writeBack key .wanted)) (hst : s.patrol.step = some st) :
    exec .writeBackCompletion s = .next s.storeFreed.endStep.settle := by
  show execWriteBackCompletion s = _
  simp only [execWriteBackCompletion, State.event_of_noGrantOwed (State.noGrantOwed_of_access h), h, hst]
  rfl

theorem exec_writeBackCompletion_dropped {key : Option Nat}
    (h : s.store.access = some (.write .writeBack key .dropped)) :
    exec .writeBackCompletion s = .next s.storeFreed.settle := by
  show execWriteBackCompletion s = _
  simp only [execWriteBackCompletion, State.event_of_noGrantOwed (State.noGrantOwed_of_access h), h]
  rfl

theorem exec_patrolReadCompletion_dropped {r : ReadResult}
    (h : s.store.access = some (.read .patrol r .dropped)) :
    exec .patrolReadCompletion s = .next s.storeFreed.settle := by
  show execPatrolReadCompletion s = _
  simp only [execPatrolReadCompletion, State.event_of_noGrantOwed (State.noGrantOwed_of_access h), h]
  rfl

theorem exec_retireReadCompletion_dropped {r : ReadResult}
    (h : s.store.access = some (.read .retire r .dropped)) :
    exec .retireReadCompletion s = .next s.storeFreed.settle := by
  show execRetireReadCompletion s = _
  simp only [execRetireReadCompletion, State.event_of_noGrantOwed (State.noGrantOwed_of_access h), h]
  rfl

theorem exec_spareWriteCompletion_dropped {key : Option Nat}
    (h : s.store.access = some (.write .spare key .dropped)) :
    exec .spareWriteCompletion s = .next s.storeFreed.settle := by
  show execSpareWriteCompletion s = _
  simp only [execSpareWriteCompletion, State.event_of_noGrantOwed (State.noGrantOwed_of_access h), h]
  rfl

/-- Settles O50: the end is written out by where the patrol goes, and each completion is one equation. -/
theorem stepEndAdvancesThePointer : Obligations.StepEndAdvancesThePointer := by
  intro s st key r q
  refine ⟨?_, exec_writeBackCompletion, exec_writeBackCompletion_dropped,
    exec_patrolReadCompletion_dropped, exec_retireReadCompletion_dropped,
    exec_spareWriteCompletion_dropped⟩
  have hpointer : q.patrol.pointer = s.patrol.pointer + 1 := by
    obtain ⟨-, -, -, -, -, hp, -⟩ :=
      State.startJob_frame (s := s.releaseMark.setPatrol s.patrol.advance)
    exact congrArg Patrol.pointer hp
  have hend : s.endStep = { q with patrol := q.patrol.resume q.maint.busy } := rfl
  rw [hend, Patrol.resume_eq, Patrol.startStep, ← hpointer]

/-! ### The patrol read (R148) -/

theorem exec_patrolReadCompletion {r : ReadResult} {st : PatrolStep}
    (h : s.store.access = some (.read .patrol r .wanted)) (hst : s.patrol.step = some st) :
    exec .patrolReadCompletion s = .next ((s.storeFreed.fileRead r .patrol none).patrolAct st r
      (s.storeFreed.filedCount r .patrol none)).settle := by
  show execPatrolReadCompletion s = _
  simp only [execPatrolReadCompletion, State.event_of_noGrantOwed (State.noGrantOwed_of_access h), h, hst]
  rfl

theorem Patrol.retires_iff {p : Patrol} {c : Option (BitVec 8)} : p.retires c = true ↔
    ∃ n, c = some n ∧ p.retireLimit ≠ 0 ∧ p.retireLimit.toNat ≤ n.toNat := by
  cases c with
  | none => simp [Patrol.retires]
  | some n => simp [Patrol.retires]

theorem State.patrolAct_of_other {st : PatrolStep} {r : ReadResult} (n : Option (BitVec 8))
    (h : r.outcome ≠ .corrected) : s.patrolAct st r n = s.endStep :=
  if_neg h

/-- A CORRECTED read takes the step to REPAIRING, with a retire operation or without (R148). -/
theorem State.patrolAct_of_corrected {st : PatrolStep} {r : ReadResult} (n : Option (BitVec 8))
    (h : r.outcome = .corrected) : s.patrolAct st r n = { s with
      patrol := { s.patrol with
        phase := .repairing
        step := some { st with
          outcome := some .corrected, data := r.data, retiring := s.patrol.retires n } }
      sparing := if s.patrol.retires n = true then
          { s.sparing with retire := some ⟨st.address, .patrol, .read⟩ }
        else s.sparing } := by
  simp only [State.patrolAct, h, if_true]
  split <;> rfl

/-- Settles O49, by the read's outcome and whether the COUNT reaches the limit. -/
theorem patrolReadRepairsOnlyCorrectedWords : Obligations.PatrolReadRepairsOnlyCorrectedWords := by
  intro s r st h hst f retires acting
  have hexec := exec_patrolReadCompletion h hst
  obtain ⟨-, -, -, -, hsparing, -, hpatrol, -⟩ := State.fileRead_frame (s := s.storeFreed) r .patrol none
  have hfp : f.patrol = s.patrol := hpatrol
  have hfs : f.sparing = s.sparing := hsparing
  have hretires : f.patrol.retires (s.storeFreed.filedCount r .patrol none) = true ↔ retires := by
    rw [hfp]
    exact Patrol.retires_iff
  refine ⟨fun hc => ?_, fun hc hret => ?_, fun hc hret => ?_⟩
  · rw [hexec, State.patrolAct_of_other _ hc]
  · have hb := hretires.2 hret
    rw [hexec, State.patrolAct_of_corrected _ hc, if_pos hb, hb, hfp, hfs]
  · have hb := Bool.eq_false_iff.2 (mt hretires.1 hret)
    rw [hexec, State.patrolAct_of_corrected _ hc, if_neg (Bool.eq_false_iff.1 hb), hb, hfp]

/-! ### The retire read (R112) -/

theorem exec_retireReadCompletion {r : ReadResult} {op : RetireOp}
    (h : s.store.access = some (.read .retire r .wanted)) (hop : s.sparing.retire = some op) :
    exec .retireReadCompletion s =
      .next ((s.storeFreed.fileRead r op.source.source none).retireAllocate op r).settle := by
  show execRetireReadCompletion s = _
  simp only [execRetireReadCompletion, State.event_of_noGrantOwed (State.noGrantOwed_of_access h), h, hop]
  rfl

/-- The slot found is the lowest FREE one. -/
theorem Sparing.lowestFree_of_first {sp : Sparing} {k : SlotNo} (hk : sp.slots[k].state = .free)
    (hlow : ∀ i : SlotNo, i < k → sp.slots[i].state ≠ .free) : sp.lowestFree = some k := by
  refine List.find?_eq_some_iff_getElem.2
    ⟨beq_iff_eq.2 hk, k.val, by simp, List.getElem_finRange .., fun j hj => ?_⟩
  have hj' : j < 16 := hj.trans k.isLt
  have hne := hlow ⟨j, hj'⟩ hj
  rw [List.getElem_finRange]
  simpa using hne

theorem Sparing.lowestFree_of_none {sp : Sparing} (h : ∀ k : SlotNo, sp.slots[k].state ≠ .free) :
    sp.lowestFree = none :=
  List.find?_eq_none.2 fun k _ hk => h k (beq_iff_eq.1 hk)

theorem State.retireAllocate_of_free {op : RetireOp} {r : ReadResult} {k : SlotNo}
    (h : s.sparing.lowestFree = some k) : s.retireAllocate op r =
      { s with sparing := { s.sparing with
        retire := some { op with
          phase := .write
            { outcome := r.outcome, copy := r.data, slot := k
              poison := decide (r.outcome = .uncorrectable ∨ r.outcome = .poisoned) } } } } := by
  rw [← ReadOutcome.faulty_eq]
  simp only [State.retireAllocate, h]
  rfl

/-- A RETIRE job ends with its one read counted, its operation and its mark gone (R118, R130). -/
theorem State.endRetireJob_of_running {j : RunningJob} (h : s.maint.run = some j) (x : ReadOutcome)
    (out : JobOutcome) (k : Option SlotNo) : s.endRetireJob x out k =
      ({ s with
        sparing := { s.sparing with retire := none }
        store := { s.store with mark := none } } : State).endJob
        { j with
          wordsDone := 1, correctedFound := if x = .corrected then 1 else 0
          uncorrFound := if x = .uncorrectable ∨ x = .poisoned then 1 else 0 } out k := by
  rw [← ReadOutcome.uncorrCount_eq]
  simp only [State.endRetireJob, h]
  rfl

section
variable {op : RetireOp} {r : ReadResult}

theorem State.retireAllocate_of_full_job (h : s.sparing.lowestFree = none) (hop : op.source = .job) :
    s.retireAllocate op r = s.raiseSparesExhausted.endRetireJob r.outcome .noSpare none := by
  simp only [State.retireAllocate, State.retireNoSpare, h, hop]

theorem State.retireAllocate_of_full_patrol (h : s.sparing.lowestFree = none)
    (hop : op.source = .patrol) :
    s.retireAllocate op r = s.raiseSparesExhausted.patrolNoSpare r := by
  simp only [State.retireAllocate, State.retireNoSpare, h, hop]

end

/-- What NO_SPARE does to a step: it ends, or falls back to a write-back (R152). -/
theorem State.patrolNoSpare_of_step {st : PatrolStep} (h : s.patrol.step = some st) (r : ReadResult) :
    s.patrolNoSpare r =
      if st.cancel = true ∨ r.outcome = .uncorrectable ∨ r.outcome = .poisoned then
        s.clearRetire.endStep
      else { s.clearRetire with patrol := { s.patrol with
        step := some { st with data := r.data, retiring := false } } } := by
  simp only [State.patrolNoSpare, h, ReadOutcome.faulty_eq, Bool.or_eq_true, decide_eq_true_eq]
  rfl

/-! ### The map commit (R114) -/

theorem exec_spareWriteCompletion {key : Option Nat} {op : RetireOp} {c : RetireCopy}
    (h : s.store.access = some (.write .spare key .wanted)) (hop : s.sparing.retire = some op)
    (hc : op.phase = .write c) : exec .spareWriteCompletion s =
      .next ((s.storeFreed.mapCommit op.address c).retireDone op c).settle := by
  show execSpareWriteCompletion s = _
  simp only [execSpareWriteCompletion, State.event_of_noGrantOwed (State.noGrantOwed_of_access h), h,
    hop, hc]
  rfl

theorem State.retireDone_of_job {op : RetireOp} (hop : op.source = .job) (c : RetireCopy) :
    s.retireDone op c = s.endRetireJob c.outcome .done (some c.slot) := by
  simp only [State.retireDone, hop]

theorem State.retireDone_of_patrol {op : RetireOp} (hop : op.source = .patrol) (c : RetireCopy) :
    s.retireDone op c = s.clearRetire.endStep := by
  simp only [State.retireDone, hop]

theorem State.resolve_eq_spare {a : Addr} {k : SlotNo} :
    s.resolve a = .spare k ↔ mapLookup s.sparing.map.toList a = some k := by
  unfold State.resolve
  cases mapLookup s.sparing.map.toList a <;> simp

/-- Besides the spares, a map commit changes SPARES_EXHAUSTED alone, set with the last FREE slot. -/
theorem State.mapCommit_eq {a : Addr} {c : RetireCopy}
    (hfree : (s.sparing.commit a c).freeCount + 1 = s.sparing.freeCount) :
    s.mapCommit a c = { s with
      sparing := { s.sparing with
        slots := (s.sparing.commit a c).slots, map := (s.sparing.commit a c).map }
      host := { s.host with flags := { s.host.flags with
        sparesExhausted := s.host.flags.sparesExhausted || decide (s.sparing.freeCount = 1) } } } := by
  have hsp : s.sparing.commit a c = { s.sparing with
      slots := (s.sparing.commit a c).slots, map := (s.sparing.commit a c).map } :=
    congrArg (Sparing.mk _ _) (Sparing.commit_retire (a := a) (c := c))
  have hflag : (s.sparing.freeCount = 1) = ((s.sparing.commit a c).freeCount = 0) :=
    propext (by omega)
  rw [← hsp]
  simp only [hflag]
  unfold State.mapCommit
  by_cases h0 : (s.sparing.commit a c).freeCount = 0
  · rw [decide_eq_true h0, Bool.or_true]
    exact if_pos h0
  · rw [decide_eq_false h0, Bool.or_false]
    exact if_neg h0

/-- Settles O48: the read by the FREE slots and the source, the commit by its laws on the spares. -/
theorem retireOperationMovesTheWordToASpare : Obligations.RetireOperationMovesTheWordToASpare := by
  refine ⟨?_, ?_⟩
  · intro s r op h hop src faulty f none'
    have hexec : exec .retireReadCompletion s = .next (f.retireAllocate op r).settle :=
      exec_retireReadCompletion h hop
    obtain ⟨-, -, -, -, hsparing, hmaint, hpatrol, -⟩ :=
      State.fileRead_frame (s := s.storeFreed) r src none
    have hfs : f.sparing = s.sparing := hsparing
    have hfm : f.maint = s.maint := hmaint
    have hfp : f.patrol = s.patrol := hpatrol
    have hnone : f.raiseSparesExhausted.clearRetire = none' := by
      rw [State.clearRetire_eq, show f.raiseSparesExhausted.sparing = s.sparing from hfs]
      rfl
    refine ⟨fun k hk hlow => ?_, fun hfull => ?_⟩
    · have hlowest : f.sparing.lowestFree = some k := by
        rw [hfs]; exact Sparing.lowestFree_of_first hk hlow
      rw [hexec, State.retireAllocate_of_free hlowest, hfs]
    · have hlowest : f.sparing.lowestFree = none := by
        rw [hfs]; exact Sparing.lowestFree_of_none hfull
      refine ⟨fun j hj hr => ?_, fun st hp hst => ?_⟩
      · rw [hexec, State.retireAllocate_of_full_job hlowest hj,
          State.endRetireJob_of_running (s := f.raiseSparesExhausted) ((congrArg Maint.run hfm).trans hr),
          ← hnone]
        rfl
      · have hstep : f.raiseSparesExhausted.patrol.step = some st := (congrArg Patrol.step hfp).trans hst
        rw [hexec, State.retireAllocate_of_full_patrol hlowest hp, State.patrolNoSpare_of_step hstep,
          hnone]
        refine ⟨fun hc => by rw [if_pos hc], fun hc hf => ?_⟩
        rw [if_neg (not_or.2 ⟨by simp [hc], hf⟩), ← hfp]
        rfl
  · intro s key op c h hop hc hwf m
    obtain ⟨hmap, hfree⟩ := Sparing.wf_iff.1 hwf
    have hslot : s.sparing.slots[c.slot].state = .free :=
      hfree _ (by simp [Sparing.allocated, hop, hc])
    obtain ⟨-, -, -, -, -, hmm, -, -, -, -, hms⟩ :=
      State.mapCommit_frame (s := s.storeFreed) op.address c
    have hsp : m.sparing = s.sparing.commit op.address c := hms
    obtain ⟨hself, hother⟩ := Sparing.commit_lookup (a := op.address) hmap hslot
    have hcount := Sparing.commit_freeCount (a := op.address) hmap hslot
    refine ⟨exec_spareWriteCompletion h hop hc, fun j hj hr => ?_, State.retireDone_of_patrol (c := c),
      ?_, fun a ha => ?_, ?_, fun old hold => ?_, fun k hk hne => ?_, ?_, ?_⟩
    · rw [State.retireDone_of_job hj, State.endRetireJob_of_running ((congrArg Maint.run hmm).trans hr)]
    · rw [State.resolve_eq_spare, hsp, hself]
    · simp only [State.resolve, hsp, hother a ha]
    · rw [hsp, Sparing.commit_get, if_pos rfl]
    · rw [State.resolve_eq_spare] at hold
      obtain ⟨-, hne⟩ := hmap.lookup_ne_free hslot hold
      rw [hsp, Sparing.commit_get, if_neg hne, if_pos hold]
    · rw [hsp, Sparing.commit_get, if_neg hk, if_neg (mt State.resolve_eq_spare.2 hne)]
    · rw [hsp, hcount]
    · have hm := State.mapCommit_eq (s := s.storeFreed) (a := op.address) (c := c) hcount
      rw [hsp]
      exact hm

end

end Sys2Proof.Machine
